-- ==== Sys2Proof/Word.lean ====
section
/-!
DEFINITION. The bit-vector types of SPF-1: the byte, the 11-bit host address, the 20-bit host bus word and
the two internal counter widths. Every value is unsigned (00_scope.md R10).
-/
namespace Sys2Proof

/-- BYTE of 00_scope.md Table 00-1: 8 bits, unsigned. -/
abbrev Byte := BitVec 8

/-- A host address, HOST_ADDR_WIDTH = 11 bits (00_scope.md Table 00-1; 20_memory.md R50). -/
abbrev HostAddr := BitVec 11

/-- A host bus word, 20 bits (30_encoding.md R93). -/
abbrev BusWord := BitVec 20

/-- `idx`, IDX_WIDTH = 9 bits (00_scope.md Table 00-1). -/
abbrev FrameIdx := BitVec 9

/-- `poll`, POLL_WIDTH = 10 bits (00_scope.md Table 00-1). -/
abbrev PollCount := BitVec 10

end Sys2Proof
end

