-- ==== Sys2Proof/Config.lean ====
section
/-!
DEFINITION. What SPF-1 fixes (00_scope.md Tables 00-1 and 00-2), the host address map (20_memory.md Table 20-1),
and the free values: constants without a body, for what the spec leaves unspecified.
-/
namespace Sys2Proof.Config

/-! ## Structural parameters (00_scope.md R8) -/

/-- POLL_BUDGET: SPF-1 takes 1000 (92_eei_decisions.md D29). DESIGN CHOICE, unsafe: an OPEN-able parameter fixed at
SPF-1's own value (log 5). -/
abbrev pollBudget : Nat := 1000

/-- TXBUF_SIZE = MAX_PAYLOAD = 255 bytes. -/
abbrev txbufSize : Nat := 255

/-- RXBUF_SIZE = MAX_PAYLOAD = 255 bytes. -/
abbrev rxbufSize : Nat := 255

/-- FRAMEBUF_SIZE = MAX_PAYLOAD + 7 = 262 bytes (30_encoding.md R85). -/
abbrev framebufSize : Nat := 262

/-- MAX_PAYLOAD = 255, the largest value of the one-byte length field. -/
abbrev maxPayload : Nat := 255

/-! ## Wire constants (00_scope.md R9, Table 00-2; taken as normative though unaudited, log 20) -/

abbrev csumSeed : Byte := 0xAD
abbrev stopByte : Byte := 0x07
abbrev sof0 : Byte := 0x07
abbrev sof1 : Byte := 0xF0
abbrev eof0 : Byte := 0x07
abbrev eof1 : Byte := 0x0F
abbrev ack0 : Byte := 0x07
abbrev ack1 : Byte := 0xF3
abbrev rspCmdHi : Byte := 0x00

/-! ## The host address map (20_memory.md R51, Table 20-1; 10_state.md Table 10-1) -/

abbrev addrOp : HostAddr := 0x000
abbrev addrStatus : HostAddr := 0x001
abbrev addrCmd : HostAddr := 0x002
abbrev addrLen : HostAddr := 0x003
abbrev addrExpCmd : HostAddr := 0x004
abbrev addrRxLen : HostAddr := 0x005
abbrev addrCsum : HostAddr := 0x006
abbrev addrFailState : HostAddr := 0x007
abbrev addrFailByte : HostAddr := 0x008

/-- TXBUF[i] is at 0x100 + i. -/
abbrev txbufBase : Nat := 0x100

/-- RXBUF[i] is at 0x200 + i. -/
abbrev rxbufBase : Nat := 0x200

/-- FRAMEBUF[i] is at 0x400 + i. -/
abbrev framebufBase : Nat := 0x400

/-! ## Free values -/

/-- U1 of 93_implementation_defined.md: the byte that the buffer location at a host address holds after a reset and
until it is written (70_reset_and_hazards.md R271). The first argument names the reset that drew it, the second is
the address. No body: nothing can be proved of its value. DESIGN CHOICE in form, safe (log 1, log 2). -/
opaque bufferDraw (epoch addr : Nat) : Byte

/-- U2 of 93_implementation_defined.md: the byte that RxPeek or RxPop gives on an empty RXQ (20_memory.md R61), one
for each draw. No body. DESIGN CHOICE in form, safe (log 3). -/
opaque emptyRxByte (draw : Nat) : Byte

end Sys2Proof.Config
end

