-- ==== Sys2Proof/Syntax.lean ====
section
/-!
DEFINITION. The instructions of SPF-1: the nine operations of 30_encoding.md Table 30-1 (R80).
An operation has no operand field (R81, R83): its operands are registers and buffers.
-/
namespace Sys2Proof

/-- One constructor per row of spec/opcode_table.json. -/
inductive Instr where
  /-- NOP, code 0x00 (40_dispatch.md R115). -/
  | nop
  /-- CSUM, code 0x01 (41_checksum.md R137). -/
  | csum
  /-- BUILD, code 0x02 (42_builder.md R154). -/
  | build
  /-- DRAIN, code 0x03 (45_buffer_guard.md R222). -/
  | drain
  /-- SEND, code 0x04 (42_builder.md R155). -/
  | send
  /-- AWAIT_ACK, code 0x05 (44_handshake.md R202). -/
  | awaitAck
  /-- READ_RESP, code 0x06 (43_reader.md R184). -/
  | readResp
  /-- EXEC_CMD, code 0x07 (44_handshake.md R203). -/
  | execCmd
  /-- EXEC_REQ, code 0x08 (44_handshake.md R204). -/
  | execReq
  deriving DecidableEq, Repr

end Sys2Proof
end

