-- ==== Sys2Proof/Decode.lean ====
section
/-!
DEFINITION. Decoding an operation code, total on every byte (30_encoding.md R80, R82), and the encoder, both read
from Table 30-1. Words are numbered as spec/opcode_table.json numbers them.
-/
namespace Sys2Proof

/-- Why a byte sequence is no operation. -/
inductive DecodeError where
  /-- One of the 247 reserved codes 0x09 to 0xFF (30_encoding.md R82): writing it to OP finishes with ILLEGAL_OP. -/
  | reservedCode (code : Byte)
  /-- There is no byte to decode. -/
  | noByte
  deriving DecidableEq, Repr

/-- One row of 30_encoding.md Table 30-1. -/
structure OpcodeRow where
  mask  : Byte
  pattern : Byte
  instr : Instr
  deriving DecidableEq, Repr

/-- 30_encoding.md Table 30-1 (match = code, mask = 0xFF). -/
def opcodeTable : List OpcodeRow :=
  [ ⟨0xFF, 0x00, .nop⟩,
    ⟨0xFF, 0x01, .csum⟩,
    ⟨0xFF, 0x02, .build⟩,
    ⟨0xFF, 0x03, .drain⟩,
    ⟨0xFF, 0x04, .send⟩,
    ⟨0xFF, 0x05, .awaitAck⟩,
    ⟨0xFF, 0x06, .readResp⟩,
    ⟨0xFF, 0x07, .execCmd⟩,
    ⟨0xFF, 0x08, .execReq⟩ ]

/-- Does the row select the code `v`? -/
def OpcodeRow.selects (r : OpcodeRow) (v : Byte) : Bool := v &&& r.mask == r.pattern

/-- The operation that the code `v` selects: the first row of the table that fits, or a reserved code by name. -/
def decodeOp (v : Byte) : Except DecodeError Instr :=
  match opcodeTable.find? (fun r => r.selects v) with
  | some r => .ok r.instr
  | none => .error (.reservedCode v)

/-- Decode the operation at the head of a byte sequence; every operation is one byte (30_encoding.md R83). -/
def decode : List Byte → Except DecodeError (Instr × List Byte)
  | [] => .error .noByte
  | v :: rest =>
    match decodeOp v with
    | .ok i => .ok (i, rest)
    | .error e => .error e

/-- The operation code of an instruction (30_encoding.md Table 30-1). -/
def opcode : Instr → Byte
  | .nop => 0x00
  | .csum => 0x01
  | .build => 0x02
  | .drain => 0x03
  | .send => 0x04
  | .awaitAck => 0x05
  | .readResp => 0x06
  | .execCmd => 0x07
  | .execReq => 0x08

/-- The bytes of an instruction: its one code byte. -/
def encode (i : Instr) : List Byte := [opcode i]

/-- Byte `j` of an instruction whose low `nbits` bits are those of `w` and whose bits above are 0; bits 7:0 are
byte 0, stored first. -/
def tableByte (nbits w j : Nat) : Byte := BitVec.ofNat 8 (w % 2 ^ nbits / 2 ^ (8 * j))

/-- The bytes of an instruction of `nbits` bits as the hardware stores them: as many as hold `nbits` bits, a last byte
begun counting as a byte, and at least the one byte of its code. The spec has no word of another length than 8 bits
(30_encoding.md R83); how one is laid out is the model's choice: DESIGN CHOICE, safe (log 21). -/
def tableBytes (nbits w : Nat) : List Byte :=
  tableByte nbits w 0 :: (List.range ((nbits + 7) / 8 - 1)).map fun j => tableByte nbits w (j + 1)

/-- The instruction the decoder reads from the bits `w` of an opcode-table row of `nbits` bits. Bytes left over after
the one code byte make it no operation, so a word of more than 8 bits is none: DESIGN CHOICE, safe (log 21). -/
def decodeTableWord (nbits w : Nat) : Option Instr :=
  match decode (tableBytes nbits w) with
  | .ok (i, []) => some i
  | _ => none

end Sys2Proof
end

