-- ==== Sys2Proof/HostNotation.lean ====
section
/-!
DEFINITION. The host's notation as data (30_encoding.md R93, R94): one access, one item of a host program, and the
pseudo-instructions. Their encoding and expansion are in Machine/HostPort.lean.
-/
namespace Sys2Proof

/-- One host access (20_memory.md R52; 30_encoding.md R93). -/
inductive HostAccess where
  /-- `rd A`: MemRead(A, 1). -/
  | read (a : HostAddr)
  /-- `wr A, V`: MemWrite(A, 1, V). -/
  | write (a : HostAddr) (v : Byte)
  deriving DecidableEq, Repr

/-- One item of an expanded host program: an access, or the loop `wait` (30_encoding.md R94), whose number of reads
is not fixed. -/
inductive HostItem where
  | access (x : HostAccess)
  | wait
  deriving DecidableEq, Repr

/-- The pseudo-instructions of 30_encoding.md R94. A payload P[0..n-1] is the list of its bytes. -/
inductive HostMacro where
  | start (i : Instr)
  | wait
  | load (p : List Byte)
  | csum (p : List Byte)
  | build (c : Byte) (p : List Byte)
  | send (c : Byte) (p : List Byte)
  | execCmd (c : Byte) (p : List Byte)
  | execReq (c e : Byte) (p : List Byte)
  | readResp (e : Byte)
  deriving DecidableEq, Repr

end Sys2Proof
end

