-- ==== Sys2Proof/Machine/State.lean ====
section
/-!
DEFINITION. The state of SPF-1 as plain data: the host-visible registers (10_state.md Table 10-1), the internal
registers (Table 10-3), the buffers, the transport state the block's steps read and change (R39), and the model's own
fields (the agenda of moves, the host's log of read values, two counters of free values).
-/
namespace Sys2Proof.Machine

/-- The seventeen states of 10_state.md Table 10-4 (R36). Codes 0x11 to 0x1F are never held, so they are no value of
this type (93_implementation_defined.md U9; log 16). -/
inductive FsmState where
  | idle | csumRun | buildRun | txSend | drainFlush | drainDiscard | ack0 | ack1
  | rspSof0 | rspSof1 | rspCmdh | rspCmdl | rspLen | rspPay | rspCsum | rspEof0 | rspEof1
  deriving DecidableEq, Repr

/-- The error codes of 60_exceptions.md Table 60-1 (R240). Code 7 is never produced (R247), so it is no value of this
type (log 16). -/
inductive ErrCode where
  | none | timeout | framing | unexpectedCmd | incomplete | checksum | illegalOp
  deriving DecidableEq, Repr

/-- The three byte buffers of 10_state.md R37. -/
inductive Buffer where
  | tx | rx | frame
  deriving DecidableEq, Repr

/-- One move of the interleaving (00_scope.md R12; 20_memory.md R65): what happens next, and who does it. -/
inductive Move where
  /-- A clock cycle: a block step if BUSY = 1, else nothing (00_scope.md R12; 40_dispatch.md R114). -/
  | clock
  /-- The host makes an access or polls in its `wait` loop (20_memory.md R52; 30_encoding.md R94). -/
  | host (i : HostItem)
  /-- The transport appends bytes to the tail of RXQ, the first of the list first (20_memory.md R60). -/
  | arrive (bs : List Byte)
  /-- The transport sets TxReady (20_memory.md R63). -/
  | setTxReady (b : Bool)
  /-- The transport sets TxEmpty (20_memory.md R63). -/
  | setTxEmpty (b : Bool)
  /-- Another agent removes the oldest byte of RXQ, against the single-consumer duty (20_memory.md R62;
  70_reset_and_hazards.md R284; log 15). -/
  | steal
  /-- The reset event (70_reset_and_hazards.md R270). -/
  | reset
  deriving DecidableEq, Repr

/-- Everything the spec gives the machine, and four fields of the model's own (last). -/
structure State where
  /-- OP (10_state.md R21). -/
  op : Byte
  /-- STATUS.BUSY (10_state.md R23). -/
  busy : Bool
  /-- STATUS.DONE (10_state.md R24). -/
  done : Bool
  /-- STATUS.OK (10_state.md R25). -/
  ok : Bool
  /-- STATUS.ERR (10_state.md R26). -/
  err : ErrCode
  /-- CMD (10_state.md R27). -/
  cmd : Byte
  /-- LEN (10_state.md R28). -/
  len : Byte
  /-- EXP_CMD (10_state.md R29). -/
  expCmd : Byte
  /-- RX_LEN (10_state.md R30). -/
  rxLen : Byte
  /-- CSUM (10_state.md R31). -/
  csum : Byte
  /-- FAIL_STATE (10_state.md R32). -/
  failState : Byte
  /-- FAIL_BYTE (10_state.md R33). -/
  failByte : Byte
  /-- `state` (10_state.md R36): the sequencing register. -/
  fsm : FsmState
  /-- `idx` (10_state.md Table 10-3). -/
  idx : FrameIdx
  /-- `acc` (10_state.md Table 10-3). -/
  acc : Byte
  /-- `seen` (10_state.md Table 10-3). -/
  seen : Bool
  /-- `poll` (10_state.md Table 10-3). -/
  poll : PollCount
  /-- `k` (10_state.md Table 10-3), of unbounded width (log 4). -/
  k : Nat
  /-- The bytes of TXBUF, RXBUF and FRAMEBUF written since the last reset, by host address (20_memory.md Table 20-1),
  addresses strictly rising (log 1). -/
  mem : List Host.Cell
  /-- RXQ, oldest byte first (20_memory.md R60). -/
  rxq : List Byte
  /-- The transmit stream: the bytes the transport has accepted, oldest first (10_state.md R39; 20_memory.md R63). -/
  txLog : List Byte
  /-- TxReady (20_memory.md R63). -/
  txReady : Bool
  /-- TxEmpty (20_memory.md R63). -/
  txEmpty : Bool
  /-- The model's own: the moves still to happen, in order. When it is empty, the next move is a clock (log 7). -/
  agenda : List Move
  /-- The model's own: the bytes the host's reads have returned, oldest first (log 11). -/
  hostLog : List Byte
  /-- The model's own: which reset drew the unwritten buffer bytes (log 2). -/
  bufEpoch : Nat
  /-- The model's own: how many free bytes RxPop has given on an empty RXQ (log 3). -/
  rxDraws : Nat
  deriving DecidableEq, Repr

/-- Why the machine stops. Each is a combination that the spec says never occurs (log 14); a run from reset meets none
of them, whatever the agenda. -/
inductive Fault where
  /-- Raised by an operation whose `state` is none of its phases (40_dispatch.md R112: only the combinations of Table
  40-1 can occur). Safe. -/
  | outsidePhases (i : Instr) (st : FsmState)
  /-- Raised by Advance for a pair of state and operation that Table 40-1 does not list (40_dispatch.md R112). Safe. -/
  | noSuccessor (i : Instr) (st : FsmState)
  /-- Raised by a clock while BUSY = 1 and OP holds a reserved code, which never sets BUSY (40_dispatch.md R116).
  Safe. -/
  | reservedRunning (code : Byte)
  /-- Raised by a state rule that indexes a buffer past its last byte (10_state.md R37; 42_builder.md R157). Safe. -/
  | noSuchByte (b : Buffer) (i : Nat)
  /-- Raised by BUILD_RUN at a frame offset above N + 6, for which its rule has no case (42_builder.md R151). Safe. -/
  | noSuchOffset (i : Nat)
  deriving DecidableEq, Repr

/-- Why an instruction is refused. -/
inductive Refusal where
  /-- Raised by `exec` for an instruction without a meaning. No arm raises it: every instruction is modelled. Safe. -/
  | notModelled (mnemonic : String)
  deriving DecidableEq, Repr

/-- What one step, and each meaning, answers. -/
abbrev Res := Host.Outcome State Fault Refusal

/-- The machine right after reset (10_state.md R40, Table 10-5; 70_reset_and_hazards.md R270): every register 0, state
IDLE, no buffer byte written. The transport is not SPF-1's state and reset leaves it alone; at the start of a run it
is taken idle: RXQ and the transmit stream empty, TxReady and TxEmpty true. DESIGN CHOICE, unsafe (log 6). -/
def State.reset : State where
  op := 0x00
  busy := false
  done := false
  ok := false
  err := .none
  cmd := 0x00
  len := 0x00
  expCmd := 0x00
  rxLen := 0x00
  csum := 0x00
  failState := 0x00
  failByte := 0x00
  fsm := .idle
  idx := 0
  acc := 0x00
  seen := false
  poll := 0
  k := 0
  mem := []
  rxq := []
  txLog := []
  txReady := true
  txEmpty := true
  agenda := []
  hostLog := []
  bufEpoch := 0
  rxDraws := 0

end Sys2Proof.Machine
end

