-- ==== Sys2Proof/Machine/Flags.lean ====
section
/-!
DEFINITION. The numbers of states and errors, STATUS as the host reads it, and the three ways a flag is written:
by Start, by Finish and (for `seen`) by the checksum engine (10_state.md R38).
-/
namespace Sys2Proof.Machine

/-- The 5-bit code of a state (10_state.md Table 10-4). -/
def stateCode : FsmState → BitVec 5
  | .idle => 0x00
  | .csumRun => 0x01
  | .buildRun => 0x02
  | .txSend => 0x03
  | .drainFlush => 0x04
  | .drainDiscard => 0x05
  | .ack0 => 0x06
  | .ack1 => 0x07
  | .rspSof0 => 0x08
  | .rspSof1 => 0x09
  | .rspCmdh => 0x0A
  | .rspCmdl => 0x0B
  | .rspLen => 0x0C
  | .rspPay => 0x0D
  | .rspCsum => 0x0E
  | .rspEof0 => 0x0F
  | .rspEof1 => 0x10

/-- FAIL_STATE's value for a state: the code in bits 4:0, bits 7:5 zero (10_state.md R32). -/
def stateByte (st : FsmState) : Byte := (0#3) ++ (stateCode st)

/-- The 3-bit number of an error code (60_exceptions.md Table 60-1). -/
def errNumber : ErrCode → BitVec 3
  | .none => 0
  | .timeout => 1
  | .framing => 2
  | .unexpectedCmd => 3
  | .incomplete => 4
  | .checksum => 5
  | .illegalOp => 6

/-- STATUS from its fields (10_state.md Table 10-2): BUSY bit 0, DONE bit 1, OK bit 2, bit 3 zero, ERR bits 6:4, bit 7
zero. -/
def statusOf (busy done ok : Bool) (err : ErrCode) : Byte :=
  (0#1) ++ (errNumber err) ++ (0#1) ++ (BitVec.ofBool ok) ++ (BitVec.ofBool done) ++ (BitVec.ofBool busy)

/-- STATUS as it stands (10_state.md R22; 20_memory.md R53). -/
def statusByte (s : State) : Byte := statusOf s.busy s.done s.ok s.err

/-- Does Finish record the failing state? For every code but NONE and ILLEGAL_OP (40_dispatch.md R113). -/
def recordsState : ErrCode → Bool
  | .none => false
  | .illegalOp => false
  | .timeout => true
  | .framing => true
  | .unexpectedCmd => true
  | .incomplete => true
  | .checksum => true

/-- The start-time clears (40_dispatch.md R110): DONE, OK, ERR, FAIL_STATE and FAIL_BYTE become 0. -/
def clearResults (s : State) : State :=
  { s with done := false, ok := false, err := .none, failState := 0x00, failByte := 0x00 }

/-- Is the byte added by CsumStep? Every byte but a 0x07 after the first 0x07 of the scan (41_checksum.md R132). -/
def csumCounts (seen : Bool) (b : Byte) : Bool := b != Config.stopByte || !seen

/-- The 9-bit sum of CsumStep with its single subtraction of 256 (41_checksum.md R132, R133). -/
def csumAdd (acc b : Byte) : Byte :=
  let s9 : BitVec 9 := acc.setWidth 9 + b.setWidth 9
  let s9' : BitVec 9 := if s9.toNat > 255 then s9 - 256#9 else s9
  s9'.setWidth 8

/-- `acc` after CsumStep(b) (41_checksum.md R132). -/
def csumAcc (acc : Byte) (seen : Bool) (b : Byte) : Byte :=
  if csumCounts seen b then csumAdd acc b else acc

/-- `seen` after CsumStep(b) (41_checksum.md R132). -/
def csumSeen (seen : Bool) (b : Byte) : Bool := seen || b == Config.stopByte

end Sys2Proof.Machine
end

