-- ==== Sys2Proof/Machine/Ops.lean ====
section
/-!
DEFINITION. The operations every state rule is written over: the buffers, the transport primitives, the checksum
engine, and the procedures Enter, Finish (failure entry), Advance, Start, AwaitVerify and AwaitTake.
-/
namespace Sys2Proof.Machine

/-! ## Buffer memory (10_state.md R37; 20_memory.md R51, R68) -/

/-- Addresses strictly rising: the canonical form of the list of written buffer bytes. -/
def risingFrom (low : Nat) : List Host.Cell → Bool
  | [] => true
  | c :: rest => low ≤ c.1 && risingFrom (c.1 + 1) rest

/-- Is this host address a byte of TXBUF, RXBUF or FRAMEBUF (20_memory.md Table 20-1)? -/
def isBufferAddr (a : Nat) : Bool :=
  (Config.txbufBase ≤ a && a < Config.txbufBase + Config.txbufSize)
    || (Config.rxbufBase ≤ a && a < Config.rxbufBase + Config.rxbufSize)
    || (Config.framebufBase ≤ a && a < Config.framebufBase + Config.framebufSize)

/-- The canonical form: addresses strictly rising, each a buffer byte. An unlisted address holds no written value, so
no entry can equal what it reads as (log 1). -/
def Memory.wf (m : List Host.Cell) : Bool := risingFrom 0 m && m.all fun c => isBufferAddr c.1

/-- The byte written last at an address since reset, if any. -/
def memFind (m : List Host.Cell) (a : Nat) : Option Byte :=
  match m with
  | [] => none
  | c :: rest => if c.1 = a then some c.2 else memFind rest a

/-- Write a byte, keeping the addresses strictly rising. -/
def memWrite (m : List Host.Cell) (a : Nat) (v : Byte) : List Host.Cell :=
  match m with
  | [] => [(a, v)]
  | c :: rest =>
    if a < c.1 then (a, v) :: c :: rest
    else if a = c.1 then (a, v) :: rest
    else c :: memWrite rest a v

/-- Where a buffer begins in the host address space (20_memory.md Table 20-1). -/
def bufBase : Buffer → Nat
  | .tx => Config.txbufBase
  | .rx => Config.rxbufBase
  | .frame => Config.framebufBase

/-- How many bytes a buffer holds (00_scope.md Table 00-1). -/
def bufSize : Buffer → Nat
  | .tx => Config.txbufSize
  | .rx => Config.rxbufSize
  | .frame => Config.framebufSize

/-- The byte at a buffer's host address: the one written last, or the draw of the last reset, which stays the same
until it is written (70_reset_and_hazards.md R271; log 1, log 2). -/
def byteAt (s : State) (a : Nat) : Byte := (memFind s.mem a).getD (Config.bufferDraw s.bufEpoch a)

/-- `BUF[i]`, or none past the buffer's last byte. -/
def bufRead (b : Buffer) (i : Nat) (s : State) : Option Byte :=
  if i < bufSize b then some (byteAt s (bufBase b + i)) else none

/-- Store a byte at a buffer's host address. -/
def storeAt (a : Nat) (v : Byte) (s : State) : State := { s with mem := memWrite s.mem a v }

/-- `BUF[i] <- v`, or none past the buffer's last byte. -/
def bufWrite (b : Buffer) (i : Nat) (v : Byte) (s : State) : Option State :=
  if i < bufSize b then some (storeAt (bufBase b + i) v s) else none

/-! ## The transport primitives (20_memory.md R60, R61, R63) -/

/-- RxAvail() = |RXQ|. -/
abbrev rxAvail (s : State) : Nat := s.rxq.length

/-- RxPeek(): the oldest byte, or a free byte on an empty RXQ (20_memory.md R61; log 3). -/
def rxPeek (s : State) : Byte :=
  match s.rxq with
  | b :: _ => b
  | [] => Config.emptyRxByte s.rxDraws

/-- RXQ after RxPop(). -/
def popQueue : List Byte → List Byte
  | [] => []
  | _ :: rest => rest

/-- The state after RxPop(): the oldest byte is gone; an empty RXQ stays as it is and only the counter of free bytes
moves (20_memory.md R61). The byte popped is `rxPeek` of the state before. -/
def rxPop (s : State) : State :=
  { s with rxq := popQueue s.rxq, rxDraws := if s.rxq.isEmpty then s.rxDraws + 1 else s.rxDraws }

/-- TxPush(b) (20_memory.md R63). Whether TxReady and TxEmpty change is the environment's move (log 12). -/
def txPush (b : Byte) (s : State) : State := { s with txLog := s.txLog ++ [b] }

/-! ## The checksum engine (41_checksum.md R131, R132) -/

/-- CsumInit(). -/
def csumInit (s : State) : State := { s with acc := Config.csumSeed, seen := false }

/-- CsumStep(b). -/
def csumStep (b : Byte) (s : State) : State :=
  { s with acc := csumAcc s.acc s.seen b, seen := csumSeen s.seen b }

/-! ## Enter, Finish, Advance, Start (40_dispatch.md R110 to R113) -/

/-- The states whose entry performs CsumInit (40_dispatch.md R111). -/
def entryInitsCsum : FsmState → Bool
  | .csumRun => true
  | .buildRun => true
  | .rspSof0 => true
  | _ => false

/-- The states whose entry clears idx (40_dispatch.md R111). -/
def entryClearsIdx : FsmState → Bool
  | .csumRun => true
  | .buildRun => true
  | .txSend => true
  | .rspPay => true
  | _ => false

/-- The state whose entry copies acc to CSUM (40_dispatch.md R111). -/
def entryLatchesCsum : FsmState → Bool
  | .rspCsum => true
  | _ => false

/-- Enter(S) (40_dispatch.md R111). -/
def enter (st : FsmState) (s : State) : State :=
  { s with
    fsm := st
    poll := 0
    acc := if entryInitsCsum st then Config.csumSeed else s.acc
    seen := if entryInitsCsum st then false else s.seen
    idx := if entryClearsIdx st then 0 else s.idx
    csum := if entryLatchesCsum st then s.acc else s.csum }

/-- Finish(code) (40_dispatch.md R113), which is also the failure entry: `raise Fail(code)` in a state rule is this
(60_exceptions.md R248). It saves the code in ERR and the failing state in FAIL_STATE, sets DONE, clears BUSY and enters
IDLE. There is no handler and no return operation (60_exceptions.md R250): the next write to OP leaves IDLE. -/
def finish (code : ErrCode) (s : State) : State :=
  { s with
    failState := if recordsState code then stateByte s.fsm else s.failState
    err := code
    ok := code == .none
    done := true
    busy := false
    fsm := .idle }

/-- A comparison failure: FAIL_BYTE gets the byte that was peeked, then Finish (43_reader.md R170; 60_exceptions.md
R248). -/
def failCompare (code : ErrCode) (b : Byte) (s : State) : State := finish code { s with failByte := b }

/-- Table 40-1 of 40_dispatch.md (R112): what follows the last state of a phase under an operation; IDLE stands for
Finish(NONE). A pair that the table does not list has no successor. -/
def successor : FsmState → Instr → Option FsmState
  | .csumRun, .csum => some .idle
  | .buildRun, .build => some .idle
  | .buildRun, .send => some .txSend
  | .buildRun, .execCmd => some .txSend
  | .buildRun, .execReq => some .txSend
  | .txSend, .send => some .idle
  | .txSend, .execCmd => some .ack0
  | .txSend, .execReq => some .ack0
  | .drainDiscard, .drain => some .idle
  | .drainDiscard, .execCmd => some .buildRun
  | .drainDiscard, .execReq => some .buildRun
  | .ack1, .awaitAck => some .idle
  | .ack1, .execCmd => some .idle
  | .ack1, .execReq => some .rspSof0
  | .rspEof1, .readResp => some .idle
  | .rspEof1, .execReq => some .idle
  | _, _ => none

/-- Advance() (40_dispatch.md R112). The operation is the one decoded from OP. -/
def advance (i : Instr) (s : State) : Res :=
  match successor s.fsm i with
  | some .idle => .next (finish .none s)
  | some st => .next (enter st s)
  | none => .fault (.noSuccessor i s.fsm)

/-- Start(v) for a defined operation (40_dispatch.md R110), whose phases are those of 30_encoding.md Table 30-1, in
order: the first one is entered. An operation with no phase (NOP) finishes at once and never sets BUSY (R115). -/
def startOp (phases : List FsmState) (clearsRxLen : Bool) (s : State) : State :=
  match phases with
  | [] => finish .none (clearResults s)
  | first :: _ =>
    enter first
      { clearResults s with
        rxLen := if clearsRxLen then 0x00 else s.rxLen
        busy := true }

/-- Start(v) for a reserved code (40_dispatch.md R116): the start-time clears, then ILLEGAL_OP, the one error raised
outside a block step (60_exceptions.md R246). -/
def startReserved (s : State) : State := finish .illegalOp (clearResults s)

/-! ## The polling primitives (43_reader.md R170, R171, R173) -/

/-- An empty availability sample: `poll` counts it, and the POLL_BUDGET-th in a row raises the timeout code
(43_reader.md R170, R171; log 13). -/
def emptySample (timeoutCode : ErrCode) (s : State) : State :=
  if (s.poll + 1).toNat = Config.pollBudget then finish timeoutCode { s with poll := s.poll + 1 }
  else { s with poll := s.poll + 1 }

/-- AwaitVerify(v, emis) (43_reader.md R170). On a match the byte is consumed and the calling state goes on with
`matched`; on a mismatch it stays at the head of RXQ. -/
def awaitVerify (v : Byte) (emis : ErrCode) (matched : State → Res) (s : State) : Res :=
  if 1 ≤ rxAvail s then
    if rxPeek s = v then matched (rxPop s) else .next (failCompare emis (rxPeek s) s)
  else .next (emptySample .timeout s)

/-- AwaitTake(eto) (43_reader.md R173): any byte is taken. -/
def awaitTake (eto : ErrCode) (taken : Byte → State → Res) (s : State) : Res :=
  if 1 ≤ rxAvail s then taken (rxPeek s) (rxPop s) else .next (emptySample eto s)

end Sys2Proof.Machine
end

