-- ==== Sys2Proof/Machine/Operands.lean ====
section
/-!
DEFINITION. The operand forms (30_encoding.md R81): every operand is a register value or a span of a buffer. None is
sign-extended, scaled or shifted.
-/
namespace Sys2Proof.Machine

/-- C = x[CMD], a command byte (30_encoding.md R81). -/
abbrev commandByte (s : State) : Byte := s.cmd

/-- N = x[LEN] as a count, 0 to 255 (30_encoding.md R81; 10_state.md R28). -/
abbrev payloadLength (s : State) : Nat := s.len.toNat

/-- E = x[EXP_CMD] (30_encoding.md R81). -/
abbrev expectedByte (s : State) : Byte := s.expCmd

/-- The pair the response's two command positions are compared with: (RSP_CMD_HI, EXP_CMD) (30_encoding.md R81). -/
abbrev expectedPair (s : State) : Byte × Byte := (Config.rspCmdHi, expectedByte s)

/-- n = x[RX_LEN] as a count. -/
abbrev responseLength (s : State) : Nat := s.rxLen.toNat

/-- The first `n` bytes of a buffer, in index order (20_memory.md R58). -/
def bufSpan (b : Buffer) (n : Nat) (s : State) : List Byte :=
  (List.range n).map fun i => byteAt s (bufBase b + i)

/-- P = TXBUF[0..LEN-1] (30_encoding.md R81). -/
def payload (s : State) : List Byte := bufSpan .tx (payloadLength s) s

end Sys2Proof.Machine
end

