-- ==== Sys2Proof/Machine/BufferGuard.lean ====
section
/-!
DEFINITION. The buffer guard's unit (00_scope.md R2 (5)): the states DRAIN_FLUSH and DRAIN_DISCARD.
-/
namespace Sys2Proof.Machine

/-- State DRAIN_FLUSH (45_buffer_guard.md R220). No timeout: while TxEmpty is false nothing changes
(70_reset_and_hazards.md R283). -/
def drainFlushStep (s : State) : Res :=
  if s.txEmpty then .next (enter .drainDiscard { s with k := rxAvail s }) else .next s

/-- State DRAIN_DISCARD (45_buffer_guard.md R221). -/
def drainDiscardStep (i : Instr) (s : State) : Res :=
  if s.k = 0 then advance i s else .next { rxPop s with k := s.k - 1 }

end Sys2Proof.Machine
end

