-- ==== Sys2Proof/Machine/ChecksumEngine.lean ====
section
/-!
DEFINITION. The checksum engine's unit (00_scope.md R2 (1)): the checksum function, and the state CSUM_RUN.
-/
namespace Sys2Proof.Machine

/-- The engine's two registers after CsumStep on each byte of a sequence in order (41_checksum.md R130, R132). -/
def csumScan (acc : Byte) (seen : Bool) : List Byte → Byte × Bool
  | [] => (acc, seen)
  | b :: rest => csumScan (csumAcc acc seen b) (csumSeen seen b) rest

/-- Checksum(B) (41_checksum.md R130). -/
def checksum (bs : List Byte) : Byte := (csumScan Config.csumSeed false bs).1

/-- State CSUM_RUN (41_checksum.md R138). -/
def csumRunStep (i : Instr) (s : State) : Res :=
  if s.idx.toNat < payloadLength s then
    match bufRead .tx s.idx.toNat s with
    | some b => .next { csumStep b s with idx := s.idx + 1 }
    | none => .fault (.noSuchByte .tx s.idx.toNat)
  else advance i { s with csum := s.acc }

end Sys2Proof.Machine
end

