-- ==== Sys2Proof/Machine/FrameBuilder.lean ====
section
/-!
DEFINITION. The frame builder's unit (00_scope.md R2 (2)): the request frame, and the states BUILD_RUN and TX_SEND.
-/
namespace Sys2Proof.Machine

/-- Frame(C, N, P) (42_builder.md R150; 30_encoding.md R84, Table 30-2). -/
def frame (c n : Byte) (p : List Byte) : List Byte :=
  [Config.sof0, Config.sof1, c, n] ++ p ++ [checksum (c :: n :: p), Config.eof0, Config.eof1]

/-- The byte BUILD_RUN writes at a frame offset (42_builder.md R151): the cases in the rule's order. None where TXBUF
has no such byte; offsets above N + 6 are refused before. -/
def buildByte (s : State) (o : Nat) : Option Byte :=
  if o = 0 then some Config.sof0
  else if o = 1 then some Config.sof1
  else if o = 2 then some (commandByte s)
  else if o = 3 then some s.len
  else if o ≤ 3 + payloadLength s then bufRead .tx (o - 4) s
  else if o = 4 + payloadLength s then some s.acc
  else if o = 5 + payloadLength s then some Config.eof0
  else some Config.eof1

/-- The registers BUILD_RUN writes at a frame offset besides FRAMEBUF and idx (42_builder.md R151): CSUM at offset
4 + N, and the checksum engine at offsets 2 to 3 + N. -/
def buildRegs (o : Nat) (b : Byte) (s : State) : State :=
  if 2 ≤ o ∧ o ≤ 3 + payloadLength s then csumStep b s
  else if o = 4 + payloadLength s then { s with csum := s.acc }
  else s

/-- State BUILD_RUN (42_builder.md R151). -/
def buildRunStep (i : Instr) (s : State) : Res :=
  if payloadLength s + 6 < s.idx.toNat then .fault (.noSuchOffset s.idx.toNat)
  else
    match buildByte s s.idx.toNat with
    | none => .fault (.noSuchByte .tx (s.idx.toNat - 4))
    | some b =>
      match bufWrite .frame s.idx.toNat b (buildRegs s.idx.toNat b s) with
      | none => .fault (.noSuchByte .frame s.idx.toNat)
      | some t =>
        if s.idx.toNat = payloadLength s + 6 then advance i t else .next { t with idx := s.idx + 1 }

/-- State TX_SEND (42_builder.md R153). No timeout: while TxReady is false nothing changes (70_reset_and_hazards.md
R283). -/
def txSendStep (i : Instr) (s : State) : Res :=
  if s.txReady then
    match bufRead .frame s.idx.toNat s with
    | none => .fault (.noSuchByte .frame s.idx.toNat)
    | some b =>
      if s.idx.toNat = payloadLength s + 6 then advance i (txPush b s)
      else .next { txPush b s with idx := s.idx + 1 }
  else .next s

end Sys2Proof.Machine
end

