-- ==== Sys2Proof/Machine/FrameReader.lean ====
section
/-!
DEFINITION. The frame reader's unit (00_scope.md R2 (3)): the response frame, and the nine states RSP_SOF0 to RSP_EOF1.
-/
namespace Sys2Proof.Machine

/-- The region a response's checksum covers: [0x00, E, n, Q...] (30_encoding.md R91). -/
def responseRegion (e n : Byte) (q : List Byte) : List Byte := Config.rspCmdHi :: e :: n :: q

/-- The response frame that is accepted for the expected command E (30_encoding.md R86, Table 30-3). -/
def responseFrame (e n : Byte) (q : List Byte) : List Byte :=
  [Config.sof0, Config.sof1, Config.rspCmdHi, e, n] ++ q
    ++ [checksum (responseRegion e n q), Config.eof0, Config.eof1]

/-- State RSP_SOF0 (43_reader.md R174). -/
def rspSof0Step (s : State) : Res :=
  awaitVerify Config.sof0 .framing (fun t => .next (enter .rspSof1 t)) s

/-- State RSP_SOF1 (43_reader.md R175). -/
def rspSof1Step (s : State) : Res :=
  awaitVerify Config.sof1 .framing (fun t => .next (enter .rspCmdh t)) s

/-- State RSP_CMDH (43_reader.md R176). -/
def rspCmdhStep (s : State) : Res :=
  awaitVerify (expectedPair s).1 .unexpectedCmd
    (fun t => .next (enter .rspCmdl (csumStep Config.rspCmdHi t))) s

/-- State RSP_CMDL (43_reader.md R177). -/
def rspCmdlStep (s : State) : Res :=
  awaitVerify (expectedPair s).2 .unexpectedCmd
    (fun t => .next (enter .rspLen (csumStep (expectedByte t) t))) s

/-- State RSP_LEN (43_reader.md R178). -/
def rspLenStep (s : State) : Res :=
  awaitTake .timeout
    (fun b t =>
      .next (enter (if b = 0 then .rspCsum else .rspPay) (csumStep b { t with rxLen := b }))) s

/-- State RSP_PAY (43_reader.md R179). The sum idx + 1 is compared exactly (log 19). -/
def rspPayStep (s : State) : Res :=
  awaitTake .incomplete
    (fun b t =>
      match bufWrite .rx t.idx.toNat b t with
      | none => .fault (.noSuchByte .rx t.idx.toNat)
      | some u =>
        if t.idx.toNat + 1 = responseLength t then .next (enter .rspCsum (csumStep b u))
        else .next { csumStep b u with poll := 0, idx := t.idx + 1 }) s

/-- State RSP_CSUM (43_reader.md R180). -/
def rspCsumStep (s : State) : Res :=
  awaitVerify s.acc .checksum (fun t => .next (enter .rspEof0 t)) s

/-- State RSP_EOF0 (43_reader.md R181). -/
def rspEof0Step (s : State) : Res :=
  awaitVerify Config.eof0 .framing (fun t => .next (enter .rspEof1 t)) s

/-- State RSP_EOF1 (43_reader.md R182). -/
def rspEof1Step (i : Instr) (s : State) : Res :=
  awaitVerify Config.eof1 .framing (advance i) s

end Sys2Proof.Machine
end

