-- ==== Sys2Proof/Machine/Handshake.lean ====
section
/-!
DEFINITION. The handshake sequencer's unit (00_scope.md R2 (4)): the states ACK0 and ACK1, and one block step of the
state machine.
-/
namespace Sys2Proof.Machine

/-- State ACK0 (44_handshake.md R200). -/
def ack0Step (s : State) : Res :=
  awaitVerify Config.ack0 .framing (fun t => .next (enter .ack1 t)) s

/-- State ACK1 (44_handshake.md R201). -/
def ack1Step (i : Instr) (s : State) : Res :=
  awaitVerify Config.ack1 .framing (advance i) s

/-- One block step: the rule of the state that `state` names (10_state.md R36, Table 10-4; 00_scope.md R12), under the
operation decoded from OP. A step in IDLE changes nothing (40_dispatch.md R114). -/
def stateRule (i : Instr) (s : State) : Res :=
  match s.fsm with
  | .idle => .next s
  | .csumRun => csumRunStep i s
  | .buildRun => buildRunStep i s
  | .txSend => txSendStep i s
  | .drainFlush => drainFlushStep s
  | .drainDiscard => drainDiscardStep i s
  | .ack0 => ack0Step s
  | .ack1 => ack1Step i s
  | .rspSof0 => rspSof0Step s
  | .rspSof1 => rspSof1Step s
  | .rspCmdh => rspCmdhStep s
  | .rspCmdl => rspCmdlStep s
  | .rspLen => rspLenStep s
  | .rspPay => rspPayStep s
  | .rspCsum => rspCsumStep s
  | .rspEof0 => rspEof0Step s
  | .rspEof1 => rspEof1Step i s

/-- One move of the block for an operation: Start when BUSY = 0 (40_dispatch.md R110), else the next block step, which
must be in one of the operation's phases (40_dispatch.md R112; log 8, log 14). -/
def operate (i : Instr) (phases : List FsmState) (clearsRxLen : Bool) (s : State) : Res :=
  if s.busy then
    if s.fsm ∈ phases then stateRule i s else .fault (.outsidePhases i s.fsm)
  else .next (startOp phases clearsRxLen s)

end Sys2Proof.Machine
end

