-- ==== Sys2Proof/Machine/Operations.lean ====
section
/-!
DEFINITION. The meanings of the nine operations: each names its phases in the order of 30_encoding.md Table 30-1, and
whether its Start clears RX_LEN (40_dispatch.md R110). One call is one move of the block (log 8).
-/
namespace Sys2Proof.Machine

/-- NOP (40_dispatch.md R115): no phase; the start-time clears and Finish(NONE) in the host write. -/
def execNop (s : State) : Res := operate .nop [] false s

/-- CSUM (41_checksum.md R137). -/
def execCsum (s : State) : Res := operate .csum [.csumRun] false s

/-- BUILD (42_builder.md R154). -/
def execBuild (s : State) : Res := operate .build [.buildRun] false s

/-- DRAIN (45_buffer_guard.md R222). -/
def execDrain (s : State) : Res := operate .drain [.drainFlush, .drainDiscard] false s

/-- SEND (42_builder.md R155). -/
def execSend (s : State) : Res := operate .send [.buildRun, .txSend] false s

/-- AWAIT_ACK (44_handshake.md R202). -/
def execAwaitAck (s : State) : Res := operate .awaitAck [.ack0, .ack1] false s

/-- READ_RESP (43_reader.md R184). -/
def execReadResp (s : State) : Res :=
  operate .readResp
    [.rspSof0, .rspSof1, .rspCmdh, .rspCmdl, .rspLen, .rspPay, .rspCsum, .rspEof0, .rspEof1] true s

/-- EXEC_CMD (44_handshake.md R203): drain, build, transmit, ack. -/
def execExecCmd (s : State) : Res :=
  operate .execCmd [.drainFlush, .drainDiscard, .buildRun, .txSend, .ack0, .ack1] false s

/-- EXEC_REQ (44_handshake.md R204): the phases of EXEC_CMD, then the frame reader's. -/
def execExecReq (s : State) : Res :=
  operate .execReq
    [.drainFlush, .drainDiscard, .buildRun, .txSend, .ack0, .ack1, .rspSof0, .rspSof1, .rspCmdh,
      .rspCmdl, .rspLen, .rspPay, .rspCsum, .rspEof0, .rspEof1] true s

end Sys2Proof.Machine
end

