-- ==== Sys2Proof/Machine/Dispatch.lean ====
section
/-!
DEFINITION. The dispatch of the nine operations of 30_encoding.md Table 30-1 to their meanings, one arm each.
-/
namespace Sys2Proof.Machine

/-- The meaning of an operation: one move of the block while that operation is the one in OP. -/
def exec (i : Instr) (s : State) : Host.Outcome State Fault Refusal :=
  match i with
  | .nop => Sys2Proof.Machine.execNop s
  | .csum => Sys2Proof.Machine.execCsum s
  | .build => Sys2Proof.Machine.execBuild s
  | .drain => Sys2Proof.Machine.execDrain s
  | .send => Sys2Proof.Machine.execSend s
  | .awaitAck => Sys2Proof.Machine.execAwaitAck s
  | .readResp => Sys2Proof.Machine.execReadResp s
  | .execCmd => Sys2Proof.Machine.execExecCmd s
  | .execReq => Sys2Proof.Machine.execExecReq s

end Sys2Proof.Machine
end

