-- ==== Sys2Proof/WellFormed.lean ====
section
/-!
DEFINITION. Well-formedness of what is written down: instructions, host bus words, pseudo-instructions and host
programs. An instruction has no operand field, so the checks that can refuse are those of the host notation.
-/
namespace Sys2Proof

/-- Every operation is well formed: all eight bits of its code select, and no bit is a register field or an
immediate (30_encoding.md R80). -/
def Instr.wellFormed : Instr → Bool
  | .nop | .csum | .build | .drain | .send | .awaitAck | .readResp | .execCmd | .execReq => true

/-- A host bus word is well formed when it is a write (bit 19 = 1), or a read whose data bits 7:0 are 0
(30_encoding.md R93). -/
def busWordOk (w : BusWord) : Bool := w.getLsbD 19 || w.extractLsb' 0 8 == 0#8

/-- The length byte must be able to hold a payload's length (30_encoding.md R94 `wr LEN, n`; 42_builder.md R157). -/
def payloadOk (p : List Byte) : Bool := p.length ≤ Config.maxPayload

/-- A pseudo-instruction is well formed when its payload, if it has one, is at most 255 bytes. -/
def HostMacro.wellFormed : HostMacro → Bool
  | .start i => i.wellFormed
  | .wait => true
  | .load p => payloadOk p
  | .csum p => payloadOk p
  | .build _ p => payloadOk p
  | .send _ p => payloadOk p
  | .execCmd _ p => payloadOk p
  | .execReq _ _ p => payloadOk p
  | .readResp _ => true

/-- Does a write of `v` at `a` set BUSY when the block is idle? Only the codes 0x01 to 0x08 at OP do
(40_dispatch.md R110). -/
def startsBusy (a : HostAddr) (v : Byte) : Bool :=
  a == Config.addrOp && 1 ≤ v.toNat && v.toNat ≤ 8

/-- 30_encoding.md R95: every write a host program means to take effect comes while BUSY = 0. The check is on the
text: after a write that sets BUSY, no write stands before a `wait`. R95 does not say which writes a program means to
take effect: the model counts every write as meant, so a program with a write meant to be ignored (95_test_vectors.md
D-5) is called not well formed. DESIGN CHOICE, safe: no step looks at this check (log 23). `busy` says whether an operation may be running
at the start. -/
def hostProgramOk (busy : Bool) : List HostItem → Bool
  | [] => true
  | .access (.read _) :: rest => hostProgramOk busy rest
  | .access (.write a v) :: rest => !busy && hostProgramOk (startsBusy a v) rest
  | .wait :: rest => hostProgramOk false rest

end Sys2Proof
end

