-- ==== Sys2Proof/Machine/HostPort.lean ====
section
/-!
DEFINITION. The host port: reads and writes of the host register space (20_memory.md R51 to R56), the host bus word
(30_encoding.md R93), and the expansion of the pseudo-instructions (R94).
-/
namespace Sys2Proof.Machine

/-! ## Reads (20_memory.md R53, Table 20-1) -/

/-- The value of a host-visible register, by address; 0x009 to 0x0FF hold none (10_state.md R34). -/
def registerAt (s : State) (a : HostAddr) : Option Byte :=
  if a = Config.addrOp then some s.op
  else if a = Config.addrStatus then some (statusByte s)
  else if a = Config.addrCmd then some s.cmd
  else if a = Config.addrLen then some s.len
  else if a = Config.addrExpCmd then some s.expCmd
  else if a = Config.addrRxLen then some s.rxLen
  else if a = Config.addrCsum then some s.csum
  else if a = Config.addrFailState then some s.failState
  else if a = Config.addrFailByte then some s.failByte
  else none

/-- MemRead(a, 1): the register, the buffer byte, or 0x00 at a reserved address (20_memory.md R51, R53). It changes no
state. -/
def hostRead (s : State) (a : HostAddr) : Byte :=
  match registerAt s a with
  | some v => v
  | none => if isBufferAddr a.toNat then byteAt s a.toNat else 0x00

/-! ## Writes (20_memory.md R54, R55) -/

/-- Is this host address a byte of TXBUF? -/
def isTxbufAddr (a : Nat) : Bool := Config.txbufBase ≤ a && a < Config.txbufBase + Config.txbufSize

/-- Start(v) for the code already stored in OP (40_dispatch.md R110): the operation it decodes to, or a reserved code
(R116). -/
def startCode (v : Byte) (s : State) : Res :=
  match decodeOp v with
  | .ok i => exec i s
  | .error _ => .next (startReserved s)

/-- MemWrite(a, 1, v) while BUSY = 0 (20_memory.md R54). -/
def hostWriteIdle (a : HostAddr) (v : Byte) (s : State) : Res :=
  if a = Config.addrOp then startCode v { s with op := v }
  else if a = Config.addrCmd then .next { s with cmd := v }
  else if a = Config.addrLen then .next { s with len := v }
  else if a = Config.addrExpCmd then .next { s with expCmd := v }
  else if isTxbufAddr a.toNat then .next (storeAt a.toNat v s)
  else .next s

/-- MemWrite(a, 1, v): ignored at every address while BUSY = 1 (20_memory.md R55). -/
def hostWrite (a : HostAddr) (v : Byte) (s : State) : Res :=
  if s.busy then .next s else hostWriteIdle a v s

/-! ## Items of a host program (30_encoding.md R93, R94) -/

/-- The value of a host read goes to the host (log 11). -/
def logRead (v : Byte) (s : State) : State := { s with hostLog := s.hostLog ++ [v] }

/-- What comes before the next read of a `wait` that goes on: the agenda's next move, when it is not the host's; a
clock, when the agenda is empty or its next move is the host's, which comes after the loop. The spec
leaves open what falls between two reads. DESIGN CHOICE (log 10). -/
def waitAgenda : List Move → List Move
  | [] => [.clock, .host .wait]
  | .host x :: rest => .clock :: .host .wait :: .host x :: rest
  | m :: rest => m :: .host .wait :: rest

/-- One pass of the loop `wait` (30_encoding.md R94): read STATUS; while bit 0 is 1 the loop goes on. That exactly one
move falls between two reads, and which one, is the model's choice: DESIGN CHOICE, unsafe for a count of the reads
(log 10). -/
def hostWait (s : State) : State :=
  { s with
    hostLog := s.hostLog ++ [statusByte s]
    agenda := if (statusByte s).getLsbD 0 then waitAgenda s.agenda else s.agenda }

/-- One host item. -/
def hostItem (x : HostItem) (s : State) : Res :=
  match x with
  | .access (.read a) => .next (logRead (hostRead s a) s)
  | .access (.write a v) => hostWrite a v s
  | .wait => .next (hostWait s)

/-! ## The host bus word (30_encoding.md R93) -/

/-- Bit 19 is 1 for a write, bits 18:8 are the address, bits 7:0 the value, 0 for a read. -/
def encodeBusWord : HostAccess → BusWord
  | .read a => (0#1) ++ a ++ (0#8)
  | .write a v => (1#1) ++ a ++ v

/-- The access a bus word stands for; a read whose data bits are not 0 is no bus word. -/
def decodeBusWord (w : BusWord) : Option HostAccess :=
  if busWordOk w then
    if w.getLsbD 19 then some (.write (w.extractLsb' 8 11) (w.extractLsb' 0 8))
    else some (.read (w.extractLsb' 8 11))
  else none

/-! ## The pseudo-instructions (30_encoding.md R94) -/

/-- `wr A, V` as an item. -/
def wr (a : HostAddr) (v : Byte) : HostItem := .access (.write a v)

/-- `rd A` as an item. -/
def rd (a : HostAddr) : HostItem := .access (.read a)

/-- The symbol `TXBUF+i` (30_encoding.md R93). -/
def txbufAddr (i : Nat) : HostAddr := BitVec.ofNat 11 (Config.txbufBase + i)

/-- The symbol `RXBUF+i`. -/
def rxbufAddr (i : Nat) : HostAddr := BitVec.ofNat 11 (Config.rxbufBase + i)

/-- The symbol `FRAMEBUF+i`. -/
def framebufAddr (i : Nat) : HostAddr := BitVec.ofNat 11 (Config.framebufBase + i)

/-- `start NAME`: write the operation's code to OP. -/
def startItem (i : Instr) : HostItem := wr Config.addrOp (opcode i)

/-- The writes `wr TXBUF+i, P[i]` for a list of bytes, from index `i` on. -/
def loadBytes (i : Nat) : List Byte → List HostItem
  | [] => []
  | b :: rest => wr (txbufAddr i) b :: loadBytes (i + 1) rest

/-- `load P[0..n-1]`: LEN, then the bytes of TXBUF in order. -/
def loadItems (p : List Byte) : List HostItem :=
  wr Config.addrLen (BitVec.ofNat 8 p.length) :: loadBytes 0 p

/-- The accesses a pseudo-instruction stands for, in order. -/
def expand : HostMacro → List HostItem
  | .start i => [startItem i]
  | .wait => [.wait]
  | .load p => loadItems p
  | .csum p => loadItems p ++ [startItem .csum, .wait]
  | .build c p => wr Config.addrCmd c :: loadItems p ++ [startItem .build, .wait]
  | .send c p => wr Config.addrCmd c :: loadItems p ++ [startItem .send, .wait]
  | .execCmd c p => wr Config.addrCmd c :: loadItems p ++ [startItem .execCmd, .wait]
  | .execReq c e p =>
    wr Config.addrCmd c :: wr Config.addrExpCmd e :: loadItems p ++ [startItem .execReq, .wait]
  | .readResp e => [wr Config.addrExpCmd e, startItem .readResp, .wait]

/-- A host program as moves of the agenda. -/
def hostMoves (p : List HostItem) : List Move := p.map Move.host

end Sys2Proof.Machine
end

