-- ==== Sys2Proof/Machine/Moves.lean ====
section
/-!
DEFINITION. The moves of the interleaving (00_scope.md R12; 20_memory.md R65): clock, host, transport, reset.
-/
namespace Sys2Proof.Machine

/-- A clock cycle (00_scope.md R12): one block step of the operation in OP while BUSY = 1; nothing while BUSY = 0
(40_dispatch.md R114; 60_exceptions.md R258). -/
def clockTick (s : State) : Res :=
  if s.busy then
    match decodeOp s.op with
    | .ok i => exec i s
    | .error _ => .fault (.reservedRunning s.op)
  else .next s

/-- The reset event (70_reset_and_hazards.md R270 to R273): every register and internal register of SPF-1 takes its
reset value, the buffer bytes become a new draw, and the transport keeps its state. The agenda and the host's log are
not SPF-1's and stay (log 17). -/
def resetEvent (s : State) : State :=
  { State.reset with
    rxq := s.rxq
    txLog := s.txLog
    txReady := s.txReady
    txEmpty := s.txEmpty
    agenda := s.agenda
    hostLog := s.hostLog
    bufEpoch := s.bufEpoch + 1
    rxDraws := s.rxDraws }

/-- What a move does. -/
def performMove (m : Move) (s : State) : Res :=
  match m with
  | .clock => clockTick s
  | .host x => hostItem x s
  | .arrive bs => .next { s with rxq := s.rxq ++ bs }
  | .setTxReady b => .next { s with txReady := b }
  | .setTxEmpty b => .next { s with txEmpty := b }
  | .steal => .next { s with rxq := popQueue s.rxq }
  | .reset => .next (resetEvent s)

/-- The next move of the agenda, taken off it; a clock when the agenda is empty, so that block steps are fair
(00_scope.md R12; log 7). -/
def nextMove (s : State) : Res :=
  match s.agenda with
  | [] => clockTick s
  | m :: rest => performMove m { s with agenda := rest }

/-- Put the host write `wr OP, v` first on the agenda of a block that is idle: the operation code the next move
fetches (20_memory.md R54; log 9). -/
def offerOp (v : Byte) (s : State) : State :=
  { s with
    busy := false
    fsm := .idle
    agenda := .host (.access (.write Config.addrOp v)) :: s.agenda }

end Sys2Proof.Machine
end

