-- ==== Sys2Proof/Machine/Step.lean ====
section
/-!
DEFINITION. The step: the next move of the interleaving (00_scope.md R12), and where an operation code is fetched.
-/
namespace Sys2Proof.Machine

/-- One step of the machine. -/
def step (s : State) : Host.Outcome State Fault Refusal := nextMove s

/-- The machine with an operation placed where the next step takes it: a host write of its code to OP (log 9). -/
def State.withFetchWord (s : State) (nbits w : Nat) : State := offerOp (tableByte nbits w 0) s

end Sys2Proof.Machine
end

