-- ==== Sys2Proof/Safety.lean ====
section
/-!
DEFINITION. What the claims speak of: runs, the phases of each operation, the invariants of every step, and the
records that the spec's outcomes leave, written with the spec's own numbers.
-/
namespace Sys2Proof.Machine

/-! ## Runs -/

/-- `n` steps of the machine, stopping at the first fault or refusal. -/
def run (n : Nat) (s : State) : Res := Host.Core.run Sys2Proof.core n s

/-- The next move is a clock; an empty agenda is one (log 7). -/
def isClock (s : State) : Prop := s.agenda = [] ∨ s.agenda.head? = some .clock

/-- The single-consumer duty (20_memory.md R62) for the next move: it is not another agent's pop. -/
def keepsDuty (s : State) : Prop := s.agenda.head? ≠ some .steal

/-! ## The operations' phases (30_encoding.md Table 30-1) -/

/-- The phases of an operation, in order, as Table 30-1 lists them. -/
def phasesOf : Instr → List FsmState
  | .nop => []
  | .csum => [.csumRun]
  | .build => [.buildRun]
  | .drain => [.drainFlush, .drainDiscard]
  | .send => [.buildRun, .txSend]
  | .awaitAck => [.ack0, .ack1]
  | .readResp =>
    [.rspSof0, .rspSof1, .rspCmdh, .rspCmdl, .rspLen, .rspPay, .rspCsum, .rspEof0, .rspEof1]
  | .execCmd => [.drainFlush, .drainDiscard, .buildRun, .txSend, .ack0, .ack1]
  | .execReq =>
    [.drainFlush, .drainDiscard, .buildRun, .txSend, .ack0, .ack1, .rspSof0, .rspSof1, .rspCmdh,
      .rspCmdl, .rspLen, .rspPay, .rspCsum, .rspEof0, .rspEof1]

/-! ## The control invariant -/

/-- The values STATUS can have (10_state.md R22). -/
def legalStatus : List Byte := [0x00, 0x01, 0x06, 0x12, 0x22, 0x32, 0x42, 0x52, 0x62]

/-- While BUSY = 1, OP holds a defined operation and `state` is one of its phases (40_dispatch.md R112). -/
def runsOwnPhase (s : State) : Prop :=
  s.busy = true → ∃ i, decodeOp s.op = .ok i ∧ s.fsm ∈ phasesOf i

/-- `idx` stays inside the phase it counts (42_builder.md R157; 43_reader.md R179). -/
def idxInRange (s : State) : Prop :=
  match s.fsm with
  | .csumRun => s.idx.toNat ≤ s.len.toNat
  | .buildRun => s.idx.toNat ≤ s.len.toNat + 6
  | .txSend => s.idx.toNat ≤ s.len.toNat + 6
  | .rspPay => s.idx.toNat < s.rxLen.toNat
  | _ => True

/-- The control invariant of every state a run can reach. -/
structure Inv (s : State) : Prop where
  /-- BUSY is 1 exactly while `state` is not IDLE (10_state.md R23). -/
  busy_iff : s.busy = true ↔ s.fsm ≠ .idle
  /-- STATUS has one of its nine values (10_state.md R22). -/
  status : statusByte s ∈ legalStatus
  /-- The running operation is in a phase of its own (40_dispatch.md R112). -/
  phase : runsOwnPhase s
  /-- `idx` is in range for its phase. -/
  idx : idxInRange s
  /-- A running operation has samples of its budget left (43_reader.md R171). -/
  poll : s.busy = true → s.poll.toNat < 1000
  /-- FAIL_STATE is a state code; bits 7:5 are 0 (10_state.md R32). -/
  failState : s.failState.toNat ≤ 0x10
  /-- Buffer memory is in its canonical form. -/
  mem : Memory.wf s.mem = true

/-- While DRAIN_DISCARD runs, RXQ holds at least the bytes still to discard (45_buffer_guard.md R221). -/
def drainCovered (s : State) : Prop := s.fsm = .drainDiscard → s.k ≤ s.rxq.length

/-! ## The data invariant -/

/-- The region of a request's checksum: [C, N, P...] (30_encoding.md R91). -/
def requestRegion (s : State) : List Byte := s.cmd :: s.len :: payload s

/-- The request frame of the operands (42_builder.md R150). -/
def requestFrame (s : State) : List Byte := frame s.cmd s.len (payload s)

/-- RXBUF[0..RX_LEN-1]. -/
def responsePayload (s : State) : List Byte := bufSpan .rx s.rxLen.toNat s

/-- The checksum engine has scanned exactly these bytes since CsumInit. -/
def scanned (s : State) (bs : List Byte) : Prop := (s.acc, s.seen) = csumScan 0xAD false bs

/-- What the registers and buffers hold of the work done so far, by state (41_checksum.md R138; 42_builder.md R152;
43_reader.md R183). -/
def dataSoFar (s : State) : Prop :=
  match s.fsm with
  | .csumRun => scanned s (bufSpan .tx s.idx.toNat s)
  | .buildRun =>
    bufSpan .frame s.idx.toNat s = (requestFrame s).take s.idx.toNat
      ∧ scanned s ((requestRegion s).take (s.idx.toNat - 2))
      ∧ (s.len.toNat + 4 < s.idx.toNat → s.csum = checksum (requestRegion s))
  | .txSend =>
    bufSpan .frame (s.len.toNat + 7) s = requestFrame s ∧ s.csum = checksum (requestRegion s)
  | .rspSof0 => scanned s []
  | .rspSof1 => scanned s []
  | .rspCmdh => scanned s []
  | .rspCmdl => scanned s [0x00]
  | .rspLen => scanned s [0x00, s.expCmd]
  | .rspPay => scanned s (0x00 :: s.expCmd :: s.rxLen :: bufSpan .rx s.idx.toNat s)
  | .rspCsum =>
    scanned s (0x00 :: s.expCmd :: s.rxLen :: responsePayload s) ∧ s.csum = s.acc
  | .rspEof0 => s.csum = checksum (0x00 :: s.expCmd :: s.rxLen :: responsePayload s)
  | .rspEof1 => s.csum = checksum (0x00 :: s.expCmd :: s.rxLen :: responsePayload s)
  | _ => True

/-- The data invariant of every state a run can reach. -/
def DataInv (s : State) : Prop := s.busy = true → dataSoFar s

/-! ## The pseudo-instructions, with the spec's numbers -/

/-- The accesses of `load P[0..n-1]` (30_encoding.md R94): `wr LEN, n`, then `wr TXBUF+i, P[i]` for i from 0 on. -/
def loadAccesses (p : List Byte) : List HostItem :=
  .access (.write 0x003 (BitVec.ofNat 8 p.length))
    :: (List.range p.length).map fun i => .access (.write (BitVec.ofNat 11 (0x100 + i)) (p.getD i 0x00))

/-! ## Outcomes, with the spec's numbers -/

/-- The record a successful operation leaves in the flags and diagnostics: STATUS 0x06, FAIL_STATE and FAIL_BYTE 0x00
(60_exceptions.md Table 60-1). -/
def succeeded (s : State) : State :=
  { s with
    busy := false, done := true, ok := true, err := .none, failState := 0x00, failByte := 0x00
    fsm := .idle }

/-- The record of a failure in the present state: ERR, FAIL_STATE, and FAIL_BYTE where a byte did not match
(60_exceptions.md R248). -/
def failedWith (code : ErrCode) (failByte : Byte) (s : State) : State :=
  { s with
    busy := false, done := true, ok := false, err := code, failState := stateByte s.fsm
    failByte := failByte, fsm := .idle }

/-- An await that finds RXQ empty: one more empty sample, and the failure `code` at the 1000th in a row
(43_reader.md R171). -/
def emptyOutcome (code : ErrCode) (s : State) : State :=
  if s.poll.toNat + 1 = 1000 then failedWith code s.failByte { s with poll := s.poll + 1 }
  else { s with poll := s.poll + 1 }

/-- One step of await-and-verify for the byte `v` (43_reader.md R170): `go rest` on a match, the failure `code` with
the byte kept at the head of RXQ on a mismatch, an empty sample otherwise. -/
def verifyOutcome (v : Byte) (code : ErrCode) (go : List Byte → State) (s : State) : State :=
  match s.rxq with
  | [] => emptyOutcome .timeout s
  | b :: rest => if b = v then go rest else failedWith code b s

/-- What an operation's Start leaves before its first step, but for the first phase's entry actions: the results
cleared, BUSY set, `poll` cleared (40_dispatch.md R110, R111). -/
def startedIn (first : FsmState) (s : State) : State :=
  { s with
    busy := true, done := false, ok := false, err := .none, failState := 0x00, failByte := 0x00
    fsm := first, poll := 0 }

end Sys2Proof.Machine
end

