-- ==== Sys2Proof/Certificates/Slice0/Obligations.lean ====
section
/-!
DEFINITION. The statements for the provers: what the numbered rules of spec/ say the machine does.
Each docstring names the rules it formalises; a clause that rests on a choice of the model names its log entry.
-/
open Sys2Proof Sys2Proof.Machine

/-! ## Encoding -/

/-- 30_encoding.md R80, Table 30-1, R82: each operation's code decodes to it, with the bytes after it left over; every
code from 0x09 on is reserved. -/
def Obligations.CodesDecodeToTheirOperations : Prop :=
  (∀ (i : Instr) (rest : List Byte), i.wellFormed = true → decode (encode i ++ rest) = .ok (i, rest))
    ∧ (∀ (v : Byte) (i : Instr), decodeOp v = .ok i → opcode i = v)
    ∧ (∀ v : Byte, 9 ≤ v.toNat → decodeOp v = .error (.reservedCode v))

/-- 30_encoding.md Table 30-1, its codes written out. -/
def Obligations.WrittenOutCodesDecode : Prop :=
  decodeTableWord 8 0b00000000 = some .nop
    ∧ decodeTableWord 8 0b00000001 = some .csum
    ∧ decodeTableWord 8 0b00000010 = some .build
    ∧ decodeTableWord 8 0b00000011 = some .drain
    ∧ decodeTableWord 8 0b00000100 = some .send
    ∧ decodeTableWord 8 0b00000101 = some .awaitAck
    ∧ decodeTableWord 8 0b00000110 = some .readResp
    ∧ decodeTableWord 8 0b00000111 = some .execCmd
    ∧ decodeTableWord 8 0b00001000 = some .execReq

/-- 30_encoding.md R93: the host bus word says every access and only accesses: bit 19 the direction, bits 18:8 the
address, bits 7:0 the value, 0 for a read. -/
def Obligations.BusWordsAndAccessesAgree : Prop :=
  (∀ x : HostAccess, decodeBusWord (encodeBusWord x) = some x)
    ∧ (∀ (w : BusWord) (x : HostAccess), decodeBusWord w = some x → encodeBusWord x = w)
    ∧ (∀ (a : HostAddr) (v : Byte),
        (encodeBusWord (.write a v)).toNat = 2 ^ 19 + a.toNat * 2 ^ 8 + v.toNat
          ∧ (encodeBusWord (.read a)).toNat = a.toNat * 2 ^ 8)
    ∧ (∀ w : BusWord, decodeBusWord w = none ↔ w.toNat < 2 ^ 19 ∧ w.toNat % 2 ^ 8 ≠ 0)

/-- 30_encoding.md R94: the accesses each pseudo-instruction expands to, in order; R95: for a well-formed one, all its
writes come while no operation can be running. That every write counts as meant to take effect is the model's choice
(log 23). -/
def Obligations.PseudoInstructionsExpandToWellFormedPrograms : Prop :=
  (∀ i : Instr, expand (.start i) = [.access (.write 0x000 (opcode i))])
    ∧ expand .wait = [.wait]
    ∧ (∀ p : List Byte,
      expand (.load p) = loadAccesses p
        ∧ expand (.csum p) = loadAccesses p ++ [.access (.write 0x000 0x01), .wait])
    ∧ (∀ (c : Byte) (p : List Byte),
      expand (.build c p) =
          [.access (.write 0x002 c)] ++ loadAccesses p ++ [.access (.write 0x000 0x02), .wait]
        ∧ expand (.send c p) =
          [.access (.write 0x002 c)] ++ loadAccesses p ++ [.access (.write 0x000 0x04), .wait]
        ∧ expand (.execCmd c p) =
          [.access (.write 0x002 c)] ++ loadAccesses p ++ [.access (.write 0x000 0x07), .wait])
    ∧ (∀ (c e : Byte) (p : List Byte),
      expand (.execReq c e p) =
        [.access (.write 0x002 c), .access (.write 0x004 e)] ++ loadAccesses p
          ++ [.access (.write 0x000 0x08), .wait])
    ∧ (∀ e : Byte,
      expand (.readResp e) = [.access (.write 0x004 e), .access (.write 0x000 0x06), .wait])
    ∧ (∀ m : HostMacro, m.wellFormed = true → hostProgramOk false (expand m) = true)

/-! ## Reset -/

/-- 70_reset_and_hazards.md R270, R272: the reset event, in any state: every register and internal register takes its
value of 10_state.md Table 10-5, and the transport keeps its state. -/
def Obligations.ResetSetsEveryRegister : Prop :=
  ∀ (s : State) (rest : List Move), s.agenda = .reset :: rest →
    ∃ t, step s = .next t
      ∧ t.op = 0x00 ∧ statusByte t = 0x00
      ∧ t.busy = false ∧ t.done = false ∧ t.ok = false ∧ t.err = .none
      ∧ t.cmd = 0x00 ∧ t.len = 0x00 ∧ t.expCmd = 0x00
      ∧ t.rxLen = 0x00 ∧ t.csum = 0x00 ∧ t.failState = 0x00 ∧ t.failByte = 0x00
      ∧ t.fsm = .idle ∧ t.idx = 0 ∧ t.acc = 0x00 ∧ t.seen = false ∧ t.poll = 0 ∧ t.k = 0
      ∧ t.rxq = s.rxq ∧ t.txLog = s.txLog ∧ t.txReady = s.txReady ∧ t.txEmpty = s.txEmpty

/-- 70_reset_and_hazards.md R271: after reset every buffer byte is a new draw, and a byte that the next step does not
write keeps its value. That each reset draws afresh is the model's choice among those R271 allows (log 2), and so is
what reset leaves of the model's own agenda and host log (log 17). -/
def Obligations.ResetDrawsTheBufferBytes : Prop :=
  ∀ (s t u : State) (a : Nat), s.agenda.head? = some .reset → step s = .next t → step t = .next u →
    byteAt t a = Config.bufferDraw (s.bufEpoch + 1) a
      ∧ t.agenda = s.agenda.tail ∧ t.hostLog = s.hostLog
      ∧ (t.agenda.head? ≠ some .reset →
        (∀ x v rest, t.agenda = .host (.access (.write x v)) :: rest → x.toNat ≠ a) →
        byteAt u a = byteAt t a)

/-- The state right after reset has the three invariants. -/
def Obligations.ResetHasTheInvariants : Prop :=
  Inv State.reset ∧ DataInv State.reset ∧ drainCovered State.reset

/-! ## The step, and the moves of the interleaving -/

/-- A step runs the decoded operation. While BUSY = 0, a host write of its code to OP stores the code and is exec of
the operation (20_memory.md R54); while BUSY = 1, a clock is exec of the operation in OP (10_state.md R36). What step
adds: the move is taken off the agenda. -/
def Obligations.StepRunsTheDecodedOperation : Prop :=
  (∀ (s : State) (v : Byte) (i : Instr) (rest : List Move),
      s.busy = false → s.agenda = .host (.access (.write 0x000 v)) :: rest → decodeOp v = .ok i →
      step s = exec i { s with op := v, agenda := rest })
    ∧ (∀ (s : State) (i : Instr) (rest : List Move),
      s.busy = true → s.agenda = .clock :: rest → decodeOp s.op = .ok i →
      step s = exec i { s with agenda := rest })
    ∧ (∀ (s : State) (i : Instr),
      s.busy = true → s.agenda = [] → decodeOp s.op = .ok i → step s = exec i s)
    ∧ (∀ (s : State) (v : Byte) (i : Instr), decodeOp v = .ok i →
      step (s.withFetchWord 8 v.toNat) = exec i { s with busy := false, fsm := .idle, op := v })

/-- 40_dispatch.md R114: with the control invariant, IDLE is BUSY = 0; a clock then changes nothing (an empty agenda is a
clock: the model's choice, log 7); and a step that leaves IDLE is a host write to OP of one of the codes 0x01 to 0x08. -/
def Obligations.IdleIsLeftOnlyByStart : Prop :=
  ∀ s : State, Inv s → s.fsm = .idle →
    s.busy = false
      ∧ (s.agenda = [] → step s = .next s)
      ∧ (∀ rest, s.agenda = .clock :: rest → step s = .next { s with agenda := rest })
      ∧ (∀ t, step s = .next t → t.fsm ≠ .idle →
          ∃ v rest, s.agenda = .host (.access (.write 0x000 v)) :: rest ∧ 1 ≤ v.toNat ∧ v.toNat ≤ 8)

/-- 20_memory.md R54: a host write while BUSY = 0, at every address. -/
def Obligations.HostWriteWhileIdle : Prop :=
  ∀ (s u : State) (a : HostAddr) (v : Byte) (rest : List Move),
    s.busy = false → s.agenda = .host (.access (.write a v)) :: rest → u = { s with agenda := rest } →
    (a = 0x000 → ∀ i, decodeOp v = .ok i → step s = exec i { u with op := v })
      ∧ (a = 0x000 → 9 ≤ v.toNat → step s =
          .next { u with
            op := v, done := true, ok := false, err := .illegalOp, failState := 0x00, failByte := 0x00
            fsm := .idle, busy := false })
      ∧ (a = 0x002 → step s = .next { u with cmd := v })
      ∧ (a = 0x003 → step s = .next { u with len := v })
      ∧ (a = 0x004 → step s = .next { u with expCmd := v })
      ∧ (0x100 ≤ a.toNat ∧ a.toNat ≤ 0x1FE →
          ∃ m, step s = .next { u with mem := m }
            ∧ ∀ x, byteAt { u with mem := m } x = if x = a.toNat then v else byteAt s x)
      ∧ (¬(a = 0x000 ∨ a = 0x002 ∨ a = 0x003 ∨ a = 0x004 ∨ (0x100 ≤ a.toNat ∧ a.toNat ≤ 0x1FE)) →
          step s = .next u)

/-- 20_memory.md R55: a host write while BUSY = 1 changes no state, at any address; and no step but reset changes OP,
CMD, LEN, EXP_CMD or a byte of TXBUF while BUSY = 1. -/
def Obligations.WritesAreIgnoredAndOperandsHeldWhileBusy : Prop :=
  (∀ (s : State) (a : HostAddr) (v : Byte) (rest : List Move),
      s.busy = true → s.agenda = .host (.access (.write a v)) :: rest →
      step s = .next { s with agenda := rest })
    ∧ (∀ s t : State, s.busy = true → s.agenda.head? ≠ some .reset → step s = .next t →
      t.op = s.op ∧ t.cmd = s.cmd ∧ t.len = s.len ∧ t.expCmd = s.expCmd
        ∧ ∀ i, i < 255 → byteAt t (0x100 + i) = byteAt s (0x100 + i))

/-- 20_memory.md R53, Table 20-1: a host read returns the value of Table 20-1 and changes no state but the model's own
record of what was read (log 11). -/
def Obligations.HostReadReturnsTheMappedValue : Prop :=
  ∀ (s : State) (a : HostAddr) (rest : List Move),
    s.agenda = .host (.access (.read a)) :: rest →
    ∃ v, step s = .next { s with agenda := rest, hostLog := s.hostLog ++ [v] }
      ∧ (a = 0x000 → v = s.op) ∧ (a = 0x001 → v = statusByte s) ∧ (a = 0x002 → v = s.cmd)
      ∧ (a = 0x003 → v = s.len) ∧ (a = 0x004 → v = s.expCmd) ∧ (a = 0x005 → v = s.rxLen)
      ∧ (a = 0x006 → v = s.csum) ∧ (a = 0x007 → v = s.failState) ∧ (a = 0x008 → v = s.failByte)
      ∧ (0x009 ≤ a.toNat ∧ a.toNat ≤ 0x0FF → v = 0x00)
      ∧ (0x100 ≤ a.toNat ∧ a.toNat ≤ 0x1FE → v = byteAt s a.toNat)
      ∧ (a.toNat = 0x1FF → v = 0x00)
      ∧ (0x200 ≤ a.toNat ∧ a.toNat ≤ 0x2FE → v = byteAt s a.toNat)
      ∧ (0x2FF ≤ a.toNat ∧ a.toNat ≤ 0x3FF → v = 0x00)
      ∧ (0x400 ≤ a.toNat ∧ a.toNat ≤ 0x505 → v = byteAt s a.toNat)
      ∧ (0x506 ≤ a.toNat → v = 0x00)

/-- 10_state.md R22, Table 10-2: STATUS's bits, and the number of each error code and the STATUS it ends with, as
60_exceptions.md Table 60-1 gives them; with the control invariant its value is one of nine, 0x01 exactly while busy. -/
def Obligations.StatusHasItsFieldsAndNineValues : Prop :=
  (∀ s : State,
      (statusByte s).getLsbD 0 = s.busy ∧ (statusByte s).getLsbD 1 = s.done
        ∧ (statusByte s).getLsbD 2 = s.ok ∧ (statusByte s).getLsbD 3 = false
        ∧ (statusByte s).extractLsb' 4 3 = errNumber s.err ∧ (statusByte s).getLsbD 7 = false)
    ∧ (errNumber .none = 0 ∧ errNumber .timeout = 1 ∧ errNumber .framing = 2
      ∧ errNumber .unexpectedCmd = 3 ∧ errNumber .incomplete = 4 ∧ errNumber .checksum = 5
      ∧ errNumber .illegalOp = 6)
    ∧ (∀ s : State,
      statusByte (finish .none s) = 0x06 ∧ statusByte (finish .timeout s) = 0x12
        ∧ statusByte (finish .framing s) = 0x22 ∧ statusByte (finish .unexpectedCmd s) = 0x32
        ∧ statusByte (finish .incomplete s) = 0x42 ∧ statusByte (finish .checksum s) = 0x52
        ∧ statusByte (finish .illegalOp s) = 0x62)
    ∧ (∀ s : State, Inv s →
      statusByte s ∈ [0x00, 0x01, 0x06, 0x12, 0x22, 0x32, 0x42, 0x52, 0x62]
        ∧ (s.busy = true ↔ statusByte s = 0x01))

/-! ## Start and Finish -/

/-- 40_dispatch.md R115: NOP finishes with NONE inside the host write; nothing else changes. -/
def Obligations.NopClearsTheResults : Prop :=
  ∀ s : State, s.busy = false → exec .nop s = .next (succeeded s)

/-- 40_dispatch.md R116: a reserved code written to OP finishes at once with ILLEGAL_OP; OP keeps the code and nothing
else changes. -/
def Obligations.ReservedCodeFinishesWithIllegalOp : Prop :=
  ∀ (s : State) (v : Byte) (rest : List Move),
    s.busy = false → 9 ≤ v.toNat → s.agenda = .host (.access (.write 0x000 v)) :: rest →
    ∃ t, step s = .next t
      ∧ t = { s with
          agenda := rest, op := v, busy := false, done := true, ok := false, err := .illegalOp
          failState := 0x00, failByte := 0x00, fsm := .idle }
      ∧ statusByte t = 0x62

/-- 40_dispatch.md R110, R111: Start of each operation that has a phase: the results are cleared, BUSY is set, the
first phase is entered with its entry actions, and nothing else changes. -/
def Obligations.StartEntersTheFirstPhase : Prop :=
  ∀ s : State, s.busy = false →
    exec .csum s = .next { startedIn .csumRun s with idx := 0, acc := 0xAD, seen := false }
      ∧ exec .build s = .next { startedIn .buildRun s with idx := 0, acc := 0xAD, seen := false }
      ∧ exec .drain s = .next (startedIn .drainFlush s)
      ∧ exec .send s = .next { startedIn .buildRun s with idx := 0, acc := 0xAD, seen := false }
      ∧ exec .awaitAck s = .next (startedIn .ack0 s)
      ∧ exec .readResp s = .next { startedIn .rspSof0 s with rxLen := 0x00, acc := 0xAD, seen := false }
      ∧ exec .execCmd s = .next (startedIn .drainFlush s)
      ∧ exec .execReq s = .next { startedIn .drainFlush s with rxLen := 0x00 }

/-- 40_dispatch.md Table 40-1: what Advance does for each pair of a state and an operation that the table lists. -/
def Obligations.AdvanceFollowsTheTable : Prop :=
  ∀ s : State,
    (∀ p ∈ [(FsmState.csumRun, Instr.csum), (.buildRun, .build), (.txSend, .send), (.drainDiscard, .drain),
          (.ack1, .awaitAck), (.ack1, .execCmd), (.rspEof1, .readResp), (.rspEof1, .execReq)],
        s.fsm = p.1 →
        advance p.2 s = .next { s with
          busy := false, done := true, ok := true, err := .none, fsm := .idle })
      ∧ (∀ i ∈ [Instr.send, .execCmd, .execReq], s.fsm = .buildRun →
          advance i s = .next { s with fsm := .txSend, poll := 0, idx := 0 })
      ∧ (∀ i ∈ [Instr.execCmd, .execReq], s.fsm = .txSend →
          advance i s = .next { s with fsm := .ack0, poll := 0 })
      ∧ (∀ i ∈ [Instr.execCmd, .execReq], s.fsm = .drainDiscard →
          advance i s =
            .next { s with fsm := .buildRun, poll := 0, idx := 0, acc := 0xAD, seen := false })
      ∧ (s.fsm = .ack1 →
          advance .execReq s = .next { s with fsm := .rspSof0, poll := 0, acc := 0xAD, seen := false })

/-- 40_dispatch.md R111: Enter, for each state. -/
def Obligations.EnterPerformsTheEntryActions : Prop :=
  ∀ s : State,
    (∀ st ∈ [FsmState.csumRun, .buildRun],
        enter st s = { s with fsm := st, poll := 0, acc := 0xAD, seen := false, idx := 0 })
      ∧ (∀ st ∈ [FsmState.txSend, .rspPay], enter st s = { s with fsm := st, poll := 0, idx := 0 })
      ∧ enter .rspSof0 s = { s with fsm := .rspSof0, poll := 0, acc := 0xAD, seen := false }
      ∧ enter .rspCsum s = { s with fsm := .rspCsum, poll := 0, csum := s.acc }
      ∧ (∀ st ∉ [FsmState.csumRun, .buildRun, .txSend, .rspPay, .rspSof0, .rspCsum],
        enter st s = { s with fsm := st, poll := 0 })

/-- 40_dispatch.md R113: Finish, for each error code: the record it writes; nothing else changes. FAIL_STATE holds the
state's code of 10_state.md Table 10-4, bits 7:5 zero (R32). -/
def Obligations.FinishWritesItsRecord : Prop :=
  ∀ (s : State) (code : ErrCode),
    (code = .none → finish code s =
        { s with err := .none, ok := true, done := true, busy := false, fsm := .idle })
      ∧ (code = .illegalOp → finish code s =
        { s with err := .illegalOp, ok := false, done := true, busy := false, fsm := .idle })
      ∧ (code ≠ .none → code ≠ .illegalOp → finish code s =
        { s with
          err := code, ok := false, done := true, busy := false, fsm := .idle, failState := stateByte s.fsm })
      ∧ (∀ x ∈ [(FsmState.idle, (0x00 : Byte)), (.csumRun, 0x01), (.buildRun, 0x02), (.txSend, 0x03),
            (.drainFlush, 0x04), (.drainDiscard, 0x05), (.ack0, 0x06), (.ack1, 0x07), (.rspSof0, 0x08),
            (.rspSof1, 0x09), (.rspCmdh, 0x0A), (.rspCmdl, 0x0B), (.rspLen, 0x0C), (.rspPay, 0x0D),
            (.rspCsum, 0x0E), (.rspEof0, 0x0F), (.rspEof1, 0x10)],
        s.fsm = x.1 → code ≠ .none → code ≠ .illegalOp → (finish code s).failState = x.2)

/-! ## The checksum -/

/-- 41_checksum.md R132: CsumStep, on numbers: a 0x07 after the first is skipped; every other byte is added, with one
subtraction of 256 from a sum over 255. -/
def Obligations.CsumStepAddsAllButRepeatedStopBytes : Prop :=
  ∀ (s : State) (b : Byte),
    (b = 0x07 ∧ s.seen = true → csumStep b s = s)
      ∧ (¬(b = 0x07 ∧ s.seen = true) →
          ∃ a : Byte, csumStep b s = { s with acc := a, seen := s.seen || b == 0x07 }
            ∧ a.toNat = if s.acc.toNat + b.toNat > 255 then s.acc.toNat + b.toNat - 256
                else s.acc.toNat + b.toNat)

/-- 41_checksum.md R134: the closed form of the checksum. -/
def Obligations.ChecksumHasItsClosedForm : Prop :=
  ∀ bs : List Byte,
    (checksum bs).toNat =
      (0xAD + ((bs.filter fun b => b != 0x07).map BitVec.toNat).sum
        + 7 * (if (0x07 : Byte) ∈ bs then 1 else 0)) % 256

/-- 41_checksum.md R135: the changes it lists keep the checksum; of the changes of one byte, exactly the listed case
does. -/
def Obligations.ListedChangesKeepTheChecksum : Prop :=
  (∀ p q : List Byte,
      ((p.filter fun b => b != 0x07).map BitVec.toNat).sum % 256
        = ((q.filter fun b => b != 0x07).map BitVec.toNat).sum % 256 →
      ((0x07 : Byte) ∈ p ↔ (0x07 : Byte) ∈ q) → checksum p = checksum q)
    ∧ (∀ (p q r : List Byte) (a b a' b' : Byte),
      a ≠ 0x07 → b ≠ 0x07 → a' ≠ 0x07 → b' ≠ 0x07 → a + b = a' + b' →
      checksum (p ++ a :: q ++ b :: r) = checksum (p ++ a' :: q ++ b' :: r))
    ∧ (∀ p q : List Byte, checksum (p ++ 0x00 :: q) = checksum (p ++ q))
    ∧ (∀ p q : List Byte, (0x07 : Byte) ∈ p ++ q → checksum (p ++ 0x07 :: q) = checksum (p ++ q))
    ∧ (∀ (p q : List Byte) (b b' : Byte), b ≠ b' →
      (checksum (p ++ b :: q) = checksum (p ++ b' :: q) ↔
        ((b = 0x00 ∧ b' = 0x07) ∨ (b = 0x07 ∧ b' = 0x00)) ∧ (0x07 : Byte) ∈ p ++ q))

/-! ## One block step of each state. At a timeout `poll` holds 1000: the model's reading of R170 (log 13). -/

/-- 41_checksum.md R138: a step of CSUM_RUN. -/
def Obligations.CsumRunAddsOneByteOrFinishes : Prop :=
  ∀ s : State, s.busy = true → s.fsm = .csumRun →
    exec .csum s = .next
      (if s.idx.toNat < s.len.toNat then
        { csumStep (byteAt s (0x100 + s.idx.toNat)) s with idx := s.idx + 1 }
      else
        { s with
          csum := s.acc, busy := false, done := true, ok := true, err := .none, fsm := .idle })

/-- 42_builder.md R151: a step of BUILD_RUN under each operation that builds: the byte written, the registers, and no
other byte of memory. -/
def Obligations.BuildRunWritesOneFrameByte : Prop :=
  ∀ (s : State) (i : Instr), s.busy = true → s.fsm = .buildRun → FsmState.buildRun ∈ phasesOf i →
    s.idx.toNat ≤ s.len.toNat + 6 →
    ∃ (b : Byte) (t u : State),
      exec i s = .next u
        ∧ (s.idx.toNat = 0 → b = 0x07) ∧ (s.idx.toNat = 1 → b = 0xF0) ∧ (s.idx.toNat = 2 → b = s.cmd)
        ∧ (s.idx.toNat = 3 → b = s.len)
        ∧ (4 ≤ s.idx.toNat ∧ s.idx.toNat ≤ 3 + s.len.toNat → b = byteAt s (0x100 + (s.idx.toNat - 4)))
        ∧ (s.idx.toNat = 4 + s.len.toNat → b = s.acc)
        ∧ (s.idx.toNat = 5 + s.len.toNat → b = 0x07)
        ∧ (s.idx.toNat = 6 + s.len.toNat → b = 0x0F)
        ∧ (∀ a, byteAt t a = if a = 0x400 + s.idx.toNat then b else byteAt s a)
        ∧ t = { (if 2 ≤ s.idx.toNat ∧ s.idx.toNat ≤ 3 + s.len.toNat then csumStep b s else s) with
            csum := if s.idx.toNat = 4 + s.len.toNat then s.acc else s.csum, mem := t.mem }
        ∧ (s.idx.toNat = s.len.toNat + 6 → .next u = advance i t)
        ∧ (s.idx.toNat < s.len.toNat + 6 → u = { t with idx := s.idx + 1 })

/-- 42_builder.md R153: a step of TX_SEND under each operation that transmits. -/
def Obligations.TxSendPushesOneByteWhenReady : Prop :=
  ∀ (s : State) (i : Instr), s.busy = true → s.fsm = .txSend → FsmState.txSend ∈ phasesOf i →
    s.idx.toNat ≤ s.len.toNat + 6 →
    (s.txReady = false → exec i s = .next s)
      ∧ (s.txReady = true → s.idx.toNat < s.len.toNat + 6 →
          exec i s = .next { s with
            txLog := s.txLog ++ [byteAt s (0x400 + s.idx.toNat)], idx := s.idx + 1 })
      ∧ (s.txReady = true → s.idx.toNat = s.len.toNat + 6 →
          exec i s = advance i { s with txLog := s.txLog ++ [byteAt s (0x400 + s.idx.toNat)] })

/-- 45_buffer_guard.md R220, R221: the steps of DRAIN_FLUSH and DRAIN_DISCARD under each operation that drains. -/
def Obligations.DrainStatesFlushThenDiscard : Prop :=
  ∀ (s : State) (i : Instr), s.busy = true → FsmState.drainFlush ∈ phasesOf i →
    (s.fsm = .drainFlush → s.txEmpty = false → exec i s = .next s)
      ∧ (s.fsm = .drainFlush → s.txEmpty = true →
          exec i s = .next { s with k := s.rxq.length, fsm := .drainDiscard, poll := 0 })
      ∧ (s.fsm = .drainDiscard → s.k = 0 → exec i s = advance i s)
      ∧ (∀ b rest, s.fsm = .drainDiscard → s.k ≠ 0 → s.rxq = b :: rest →
          exec i s = .next { s with rxq := rest, k := s.k - 1 })

/-- 20_memory.md R61, 70_reset_and_hazards.md R284: a discard on an empty RXQ, which only another agent's pops can
bring about, changes nothing but the count (and the model's own counter of free values, log 3). -/
def Obligations.DiscardOnAnEmptyQueuePopsNothing : Prop :=
  ∀ (s : State) (i : Instr), s.busy = true → s.fsm = .drainDiscard → FsmState.drainDiscard ∈ phasesOf i →
    s.k ≠ 0 → s.rxq = [] →
    exec i s = .next { s with k := s.k - 1, rxDraws := s.rxDraws + 1 }

/-- 44_handshake.md R200, R201: the steps of ACK0 and ACK1 under each operation that awaits an ack. -/
def Obligations.AckStatesVerifyTheirBytes : Prop :=
  ∀ (s : State) (i : Instr), s.busy = true → FsmState.ack0 ∈ phasesOf i →
    (s.fsm = .ack0 → exec i s = .next
        (verifyOutcome 0x07 .framing (fun rest => { s with rxq := rest, fsm := .ack1, poll := 0 }) s))
      ∧ (s.fsm = .ack1 → i ≠ .execReq → exec i s = .next
        (verifyOutcome 0xF3 .framing
          (fun rest => { s with
            rxq := rest, busy := false, done := true, ok := true, err := .none, fsm := .idle }) s))
      ∧ (s.fsm = .ack1 → i = .execReq → exec i s = .next
        (verifyOutcome 0xF3 .framing
          (fun rest => { s with
            rxq := rest, fsm := .rspSof0, poll := 0, acc := 0xAD, seen := false }) s))

/-- 43_reader.md R174, R175, R181, R182: the steps of the four marker states under READ_RESP and EXEC_REQ. -/
def Obligations.MarkerStatesVerifyTheirBytes : Prop :=
  ∀ (s : State) (i : Instr), s.busy = true → FsmState.rspSof0 ∈ phasesOf i →
    (s.fsm = .rspSof0 → exec i s = .next
        (verifyOutcome 0x07 .framing (fun rest => { s with rxq := rest, fsm := .rspSof1, poll := 0 }) s))
      ∧ (s.fsm = .rspSof1 → exec i s = .next
        (verifyOutcome 0xF0 .framing (fun rest => { s with rxq := rest, fsm := .rspCmdh, poll := 0 }) s))
      ∧ (s.fsm = .rspEof0 → exec i s = .next
        (verifyOutcome 0x07 .framing (fun rest => { s with rxq := rest, fsm := .rspEof1, poll := 0 }) s))
      ∧ (s.fsm = .rspEof1 → exec i s = .next
        (verifyOutcome 0x0F .framing
          (fun rest => { s with
            rxq := rest, busy := false, done := true, ok := true, err := .none, fsm := .idle }) s))

/-- 43_reader.md R176, R177, R180: the steps of the two command states and of the checksum state. -/
def Obligations.CommandAndChecksumStatesVerifyTheirBytes : Prop :=
  ∀ (s : State) (i : Instr), s.busy = true → FsmState.rspSof0 ∈ phasesOf i →
    (s.fsm = .rspCmdh → exec i s = .next
        (verifyOutcome 0x00 .unexpectedCmd
          (fun rest => { csumStep 0x00 s with rxq := rest, fsm := .rspCmdl, poll := 0 }) s))
      ∧ (s.fsm = .rspCmdl → exec i s = .next
        (verifyOutcome s.expCmd .unexpectedCmd
          (fun rest => { csumStep s.expCmd s with rxq := rest, fsm := .rspLen, poll := 0 }) s))
      ∧ (s.fsm = .rspCsum → exec i s = .next
        (verifyOutcome s.acc .checksum
          (fun rest => { s with rxq := rest, fsm := .rspEof0, poll := 0 }) s))

/-- 43_reader.md R178: the step of RSP_LEN: every length is accepted, and a length of 0 skips the payload. -/
def Obligations.LengthStateTakesAnyByte : Prop :=
  ∀ (s : State) (i : Instr), s.busy = true → s.fsm = .rspLen → FsmState.rspLen ∈ phasesOf i →
    (s.rxq = [] → exec i s = .next (emptyOutcome .timeout s))
      ∧ (∀ b rest, s.rxq = b :: rest → b ≠ 0x00 →
          exec i s = .next { csumStep b s with
            rxq := rest, rxLen := b, fsm := .rspPay, poll := 0, idx := 0 })
      ∧ (∀ rest, s.rxq = 0x00 :: rest →
          exec i s = .next { csumStep 0x00 s with
            rxq := rest, rxLen := 0x00, fsm := .rspCsum, poll := 0, csum := (csumStep 0x00 s).acc })

/-- 43_reader.md R179: the step of RSP_PAY: any byte is stored at RXBUF[idx] and at no other place, and enters the
checksum; the last one ends the phase. -/
def Obligations.PayloadStateStoresOneByte : Prop :=
  ∀ (s : State) (i : Instr), s.busy = true → s.fsm = .rspPay → FsmState.rspPay ∈ phasesOf i →
    s.idx.toNat < s.rxLen.toNat →
    (s.rxq = [] → exec i s = .next (emptyOutcome .incomplete s))
      ∧ (∀ b rest, s.rxq = b :: rest → ∃ t u : State,
          exec i s = .next u
            ∧ (∀ a, byteAt t a = if a = 0x200 + s.idx.toNat then b else byteAt s a)
            ∧ t = { csumStep b s with rxq := rest, poll := 0, mem := t.mem }
            ∧ u = if s.idx.toNat + 1 = s.rxLen.toNat then { t with fsm := .rspCsum, csum := t.acc }
                else { t with idx := s.idx + 1 })

/-- 43_reader.md R171; 60_exceptions.md R241, R244: an await that sees no byte changes only `poll` for 999 steps and
fails on the 1000th, INCOMPLETE in RSP_PAY and TIMEOUT elsewhere. The value left in `poll` is the model's reading
(log 13), and an empty agenda is a clock (log 7). -/
def Obligations.EveryAwaitHasItsBudget : Prop :=
  ∀ (s : State) (i : Instr), s.busy = true → decodeOp s.op = .ok i → s.fsm ∈ phasesOf i →
    s.fsm ∈ [FsmState.ack0, .ack1, .rspSof0, .rspSof1, .rspCmdh, .rspCmdl, .rspLen, .rspPay, .rspCsum,
      .rspEof0, .rspEof1] →
    s.rxq = [] → s.poll = 0 → s.agenda = [] →
    (∀ j, j < 1000 → run j s = .next { s with poll := BitVec.ofNat 10 j })
      ∧ run 1000 s = .next
          (failedWith (if s.fsm = .rspPay then .incomplete else .timeout) s.failByte { s with poll := 1000 })

/-- 70_reset_and_hazards.md R283: the two unbounded waits: TX_SEND while TxReady is false and DRAIN_FLUSH while TxEmpty
is false stay as they are for any number of clocks, and reset ends them. -/
def Obligations.TheTwoUnboundedWaits : Prop :=
  ∀ (s : State) (i : Instr) (n : Nat), s.busy = true → decodeOp s.op = .ok i → s.fsm ∈ phasesOf i →
    (s.fsm = .txSend ∧ s.txReady = false) ∨ (s.fsm = .drainFlush ∧ s.txEmpty = false) →
    (s.agenda = [] → run n s = .next s)
      ∧ (s.agenda = List.replicate n .clock ++ [.reset] →
          ∃ t, run (n + 1) s = .next t ∧ t.busy = false ∧ t.fsm = .idle)

/-! ## Whole operations. With an empty agenda every step is a clock: the model's choice (log 7). -/

/-- 41_checksum.md R137, R138: CSUM, from its Start to its end. -/
def Obligations.CsumOperationLeavesTheChecksum : Prop :=
  ∀ s : State, s.busy = false → s.op = 0x01 → s.agenda = [] →
    ∃ t u, exec .csum s = .next t ∧ run (s.len.toNat + 1) t = .next u
      ∧ (∀ m w, m ≤ s.len.toNat → run m t = .next w → statusByte w = 0x01)
      ∧ u.csum = checksum (payload s) ∧ statusByte u = 0x06
      ∧ u = { succeeded s with csum := u.csum, idx := u.idx, acc := u.acc, seen := u.seen, poll := u.poll }

/-- 42_builder.md R151, R152, R154: BUILD, from its Start to its end. -/
def Obligations.BuildOperationLeavesTheFrame : Prop :=
  ∀ s : State, s.busy = false → s.op = 0x02 → s.agenda = [] →
    ∃ t u, exec .build s = .next t ∧ run (s.len.toNat + 7) t = .next u
      ∧ (∀ m w, m < s.len.toNat + 7 → run m t = .next w → statusByte w = 0x01)
      ∧ bufSpan .frame (s.len.toNat + 7) u = requestFrame s
      ∧ u.csum = checksum (requestRegion s) ∧ u.csum = byteAt u (0x400 + (4 + s.len.toNat))
      ∧ (∀ a, a < 0x400 ∨ 0x400 + s.len.toNat + 7 ≤ a → byteAt u a = byteAt s a)
      ∧ statusByte u = 0x06
      ∧ u = { succeeded s with
          csum := u.csum, mem := u.mem, idx := u.idx, acc := u.acc, seen := u.seen, poll := u.poll }

/-- 42_builder.md R155, R156: SEND, from its Start to its end, with TxReady true throughout. -/
def Obligations.SendOperationTransmitsTheFrame : Prop :=
  ∀ s : State, s.busy = false → s.op = 0x04 → s.agenda = [] → s.txReady = true →
    ∃ t u, exec .send s = .next t ∧ run (2 * (s.len.toNat + 7)) t = .next u
      ∧ (∀ m w, m < 2 * (s.len.toNat + 7) → run m t = .next w → statusByte w = 0x01)
      ∧ u.txLog = s.txLog ++ requestFrame s
      ∧ bufSpan .frame (s.len.toNat + 7) u = requestFrame s
      ∧ u.csum = checksum (requestRegion s)
      ∧ (∀ a, a < 0x400 ∨ 0x400 + s.len.toNat + 7 ≤ a → byteAt u a = byteAt s a)
      ∧ statusByte u = 0x06
      ∧ u = { succeeded s with
          csum := u.csum, mem := u.mem, txLog := u.txLog, idx := u.idx, acc := u.acc, seen := u.seen
          poll := u.poll }

/-- 45_buffer_guard.md R222: DRAIN, from its Start to its end, with TxEmpty true: every byte waiting is discarded. -/
def Obligations.DrainOperationDiscardsWhatWaits : Prop :=
  ∀ s : State, s.busy = false → s.op = 0x03 → s.agenda = [] → s.txEmpty = true →
    ∃ t u, exec .drain s = .next t ∧ run (s.rxq.length + 2) t = .next u
      ∧ (∀ m w, m < s.rxq.length + 2 → run m t = .next w → statusByte w = 0x01)
      ∧ statusByte u = 0x06
      ∧ u = { succeeded s with rxq := [], k := 0, poll := 0 }

/-- 45_buffer_guard.md R221, R224: a byte that arrives after the count is latched is kept by the drain. -/
def Obligations.DrainKeepsLateBytes : Prop :=
  ∀ (s : State) (j : Nat) (late : List Byte), s.busy = false → s.op = 0x03 → s.txEmpty = true →
    j ≤ s.rxq.length → s.agenda = List.replicate (1 + j) .clock ++ [.arrive late] →
    ∃ t u, exec .drain s = .next t ∧ run (s.rxq.length + 3) t = .next u
      ∧ u = { succeeded s with rxq := late, k := 0, poll := 0, agenda := [] }

/-- 44_handshake.md R202: AWAIT_ACK, from its Start to its end, with no byte arriving meanwhile: the ack, a wrong first
byte, a wrong second byte, no byte, and one byte only. -/
def Obligations.AwaitAckOutcomes : Prop :=
  ∀ s : State, s.busy = false → s.op = 0x05 → s.agenda = [] →
    ∃ t, exec .awaitAck s = .next t
      ∧ (∀ rest, s.rxq = 0x07 :: 0xF3 :: rest →
          run 2 t = .next { succeeded s with rxq := rest, poll := 0 })
      ∧ (∀ b rest, s.rxq = b :: rest → b ≠ 0x07 →
          run 1 t = .next { failedWith .framing b s with failState := 0x06, poll := 0 })
      ∧ (∀ b rest, s.rxq = 0x07 :: b :: rest → b ≠ 0xF3 →
          run 2 t = .next { failedWith .framing b s with rxq := b :: rest, failState := 0x07, poll := 0 })
      ∧ (s.rxq = [] → ∃ u, run 1000 t = .next u ∧ statusByte u = 0x12
          ∧ u = { failedWith .timeout 0x00 s with failState := 0x06, poll := u.poll })
      ∧ (s.rxq = [0x07] → ∃ u, run 1001 t = .next u ∧ statusByte u = 0x12
          ∧ u = { failedWith .timeout 0x00 s with rxq := [], failState := 0x07, poll := u.poll })

/-- 43_reader.md R184, R185: READ_RESP accepts a response frame that is in RXQ, in n + 8 steps: the payload is in
RXBUF, its length in RX_LEN, its checksum in CSUM, and the bytes after the frame stay. -/
def Obligations.ReadRespAcceptsAResponseFrame : Prop :=
  ∀ (s : State) (n : Byte) (q tail : List Byte), s.busy = false → s.op = 0x06 → s.agenda = [] →
    q.length = n.toNat → s.rxq = responseFrame s.expCmd n q ++ tail →
    ∃ t u, exec .readResp s = .next t ∧ run (n.toNat + 8) t = .next u
      ∧ (∀ m w, m < n.toNat + 8 → run m t = .next w → statusByte w = 0x01)
      ∧ u.rxLen = n ∧ bufSpan .rx n.toNat u = q ∧ u.csum = checksum (0x00 :: s.expCmd :: n :: q)
      ∧ u.rxq = tail
      ∧ (∀ a, a < 0x200 ∨ 0x200 + n.toNat ≤ a → byteAt u a = byteAt s a)
      ∧ statusByte u = 0x06
      ∧ u = { succeeded s with
          rxLen := u.rxLen, csum := u.csum, mem := u.mem, rxq := u.rxq, idx := u.idx, acc := u.acc
          seen := u.seen, poll := u.poll }

/-- 43_reader.md R185: when no byte arrives meanwhile, READ_RESP succeeds exactly if RXQ begins with a response frame
for EXP_CMD, and then that frame is what it consumed. -/
def Obligations.ReadRespSucceedsExactlyOnResponseFrames : Prop :=
  ∀ s t : State, s.busy = false → s.op = 0x06 → s.agenda = [] → exec .readResp s = .next t →
    ((∃ m u, run m t = .next u ∧ u.busy = false ∧ u.ok = true) ↔
        ∃ (n : Byte) (q tail : List Byte), q.length = n.toNat ∧ s.rxq = responseFrame s.expCmd n q ++ tail)
      ∧ (∀ m u, run m t = .next u → u.busy = false → u.ok = true →
          ∃ (n : Byte) (q : List Byte), q.length = n.toNat
            ∧ s.rxq = responseFrame s.expCmd n q ++ u.rxq ∧ u.rxLen = n ∧ responsePayload u = q)

/-- 43_reader.md R186, 60_exceptions.md R248: when READ_RESP fails with no byte arriving meanwhile, what it consumed is
the beginning of a well-formed response frame; on a comparison failure the failing byte is at the head of RXQ and in
FAIL_BYTE; RX_LEN, RXBUF and CSUM hold what was reached. -/
def Obligations.ReadRespFailsOnABeginningOfAFrame : Prop :=
  ∀ (s t u : State) (m : Nat), s.busy = false → s.op = 0x06 → s.agenda = [] →
    exec .readResp s = .next t → run m t = .next u → u.busy = false → u.ok = false →
    (∃ (n : Byte) (q c rest : List Byte), q.length = n.toNat ∧ c ++ rest = responseFrame s.expCmd n q
        ∧ s.rxq = c ++ u.rxq
        ∧ (c.length < 5 → u.rxLen = 0x00) ∧ (5 ≤ c.length → u.rxLen = n)
        ∧ (∀ j, 5 + j < c.length → j < q.length → byteAt u (0x200 + j) = q.getD j 0)
        ∧ (c.length < 5 + q.length → u.csum = s.csum)
        ∧ (5 + q.length ≤ c.length →
            u.csum = checksum (0x00 :: s.expCmd :: n :: q)))
      ∧ (u.err = .framing ∨ u.err = .unexpectedCmd ∨ u.err = .checksum →
          ∃ rest, u.rxq = u.failByte :: rest)
      ∧ (u.err = .timeout ∨ u.err = .incomplete → u.rxq = [] ∧ u.failByte = 0x00)
      ∧ u.err ≠ .none ∧ u.err ≠ .illegalOp

/-- 43_reader.md R187: the builder's frame with 0x00 before its command byte is read back as the same payload; the
frame itself fails at RSP_CMDH with UNEXPECTED_CMD when its command is not 0x00. -/
def Obligations.BuiltFramesRoundTripThroughTheReader : Prop :=
  ∀ (s : State) (c n : Byte) (p : List Byte), s.busy = false → s.op = 0x06 → s.agenda = [] →
    s.expCmd = c → p.length = n.toNat →
    checksum (0x00 :: c :: n :: p) = checksum (c :: n :: p)
      ∧ (s.rxq = (frame c n p).take 2 ++ 0x00 :: (frame c n p).drop 2 →
        ∃ t u, exec .readResp s = .next t ∧ run (n.toNat + 8) t = .next u
          ∧ statusByte u = 0x06 ∧ u.rxLen = n ∧ bufSpan .rx n.toNat u = p ∧ u.rxq = [])
      ∧ (s.rxq = frame c n p → c ≠ 0x00 →
        ∃ t u, exec .readResp s = .next t ∧ run 3 t = .next u
          ∧ statusByte u = 0x32 ∧ u.failState = 0x0A ∧ u.failByte = c ∧ u.rxq = (frame c n p).drop 2)

/-- 44_handshake.md R203; 45_buffer_guard.md R224: EXEC_CMD with an idle transport: the bytes waiting at the start are
discarded, the frame is transmitted, and the ack that arrives after the frame ends the transaction. The clocks after the
arrival are those of an empty agenda: the model's choice (log 7). -/
def Obligations.ExecCmdRunsACommandTransaction : Prop :=
  ∀ (s : State) (tail : List Byte), s.busy = false → s.op = 0x07 → s.txReady = true → s.txEmpty = true →
    s.agenda =
      List.replicate (s.rxq.length + 2 + 2 * (s.len.toNat + 7)) .clock ++ [.arrive (0x07 :: 0xF3 :: tail)] →
    ∃ t u, exec .execCmd s = .next t
      ∧ run (s.rxq.length + 2 + 2 * (s.len.toNat + 7) + 1 + 2) t = .next u
      ∧ u.txLog = s.txLog ++ requestFrame s ∧ u.rxq = tail
      ∧ bufSpan .frame (s.len.toNat + 7) u = requestFrame s
      ∧ u.csum = checksum (requestRegion s)
      ∧ (∀ a, a < 0x400 ∨ 0x400 + s.len.toNat + 7 ≤ a → byteAt u a = byteAt s a)
      ∧ statusByte u = 0x06
      ∧ u = { succeeded s with
          csum := u.csum, mem := u.mem, txLog := u.txLog, rxq := u.rxq, k := 0, agenda := []
          idx := u.idx, acc := u.acc, seen := u.seen, poll := u.poll }

/-- 44_handshake.md R203, R205: EXEC_CMD with no ack at all: TIMEOUT in ACK0 after 1000 empty samples; the frame stays
transmitted and the stale bytes discarded. -/
def Obligations.ExecCmdTimesOutWithoutAnAck : Prop :=
  ∀ s : State, s.busy = false → s.op = 0x07 → s.txReady = true → s.txEmpty = true → s.agenda = [] →
    ∃ t u, exec .execCmd s = .next t
      ∧ run (s.rxq.length + 2 + 2 * (s.len.toNat + 7) + 1000) t = .next u
      ∧ u.txLog = s.txLog ++ requestFrame s ∧ u.rxq = []
      ∧ statusByte u = 0x12 ∧ u.failState = 0x06 ∧ u.failByte = 0x00
      ∧ u.csum = checksum (requestRegion s)

/-- 44_handshake.md R204: EXEC_REQ with an idle transport: the transaction of EXEC_CMD, then the response that arrives
with the ack is parsed; CSUM is the response's. The clocks after the arrival are those of an empty agenda: the model's
choice (log 7). -/
def Obligations.ExecReqRunsARequestTransaction : Prop :=
  ∀ (s : State) (n : Byte) (q tail : List Byte), s.busy = false → s.op = 0x08 → s.txReady = true →
    s.txEmpty = true → q.length = n.toNat →
    s.agenda =
      List.replicate (s.rxq.length + 2 + 2 * (s.len.toNat + 7)) .clock
        ++ [.arrive (0x07 :: 0xF3 :: responseFrame s.expCmd n q ++ tail)] →
    ∃ t u, exec .execReq s = .next t
      ∧ run (s.rxq.length + 2 + 2 * (s.len.toNat + 7) + 1 + 2 + (n.toNat + 8)) t = .next u
      ∧ u.txLog = s.txLog ++ requestFrame s ∧ u.rxq = tail
      ∧ bufSpan .frame (s.len.toNat + 7) u = requestFrame s
      ∧ u.rxLen = n ∧ bufSpan .rx n.toNat u = q
      ∧ u.csum = checksum (0x00 :: s.expCmd :: n :: q)
      ∧ (∀ a, ¬(0x200 ≤ a ∧ a < 0x200 + n.toNat) → ¬(0x400 ≤ a ∧ a < 0x400 + s.len.toNat + 7) →
          byteAt u a = byteAt s a)
      ∧ statusByte u = 0x06
      ∧ u = { succeeded s with
          rxLen := u.rxLen, csum := u.csum, mem := u.mem, txLog := u.txLog, rxq := u.rxq, k := 0
          agenda := [], idx := u.idx, acc := u.acc, seen := u.seen, poll := u.poll }

/-- 40_dispatch.md R118: when TxReady and TxEmpty are true, every operation ends. -/
def Obligations.EveryOperationEnds : Prop :=
  ∀ s : State, Inv s → s.agenda = [] → s.txReady = true → s.txEmpty = true →
    ∃ n t, run n s = .next t ∧ t.busy = false ∧ t.done = (s.busy || s.done)

/-- 30_encoding.md R94: the host program `csum P` run from an idle block, the wait loop reading STATUS once before each
clock (log 10): CSUM holds the checksum of P and the program is at its end. -/
def Obligations.CsumHostProgramLeavesTheChecksum : Prop :=
  ∀ (s : State) (p : List Byte), s.busy = false → p.length ≤ 255 →
    s.agenda = hostMoves (expand (.csum p)) →
    ∃ u, run (3 * p.length + 5) s = .next u ∧ u.agenda = [] ∧ statusByte u = 0x06
      ∧ u.csum = checksum p ∧ u.len.toNat = p.length ∧ payload u = p
      ∧ u.hostLog = s.hostLog ++ List.replicate (p.length + 1) 0x01 ++ [0x06]

/-! ## Invariants and rules of the whole machine -/

/-- The control invariant is kept by every step, whoever moves. -/
def Obligations.EveryStepKeepsTheControlInvariant : Prop :=
  ∀ s t : State, Inv s → step s = .next t → Inv t

/-- 10_state.md R36, 40_dispatch.md R112, 42_builder.md R157, 60_exceptions.md R247: from a state with the control
invariant every step answers a next state: no combination that the spec says cannot occur is met. -/
def Obligations.NoStepStopsTheMachine : Prop :=
  ∀ s : State, Inv s → ∃ t, step s = .next t

/-- 41_checksum.md R136, 42_builder.md R152, 43_reader.md R183: the data invariant is kept by every step: FRAMEBUF holds
the frame built so far, and the checksum engine has scanned exactly the region so far. -/
def Obligations.EveryStepKeepsTheDataInvariant : Prop :=
  ∀ s t : State, Inv s → DataInv s → step s = .next t → DataInv t

/-- 45_buffer_guard.md R221, 20_memory.md R62: while no other agent pops RXQ, it holds at least `k` bytes throughout
DRAIN_DISCARD. -/
def Obligations.DrainNeverRunsDry : Prop :=
  ∀ s t : State, drainCovered s → keepsDuty s → step s = .next t → drainCovered t

/-- 20_memory.md R64: a block step pops at most one byte or pushes at most one, never both. -/
def Obligations.OneTransportTransferPerBlockStep : Prop :=
  ∀ s t : State, (s.agenda = [] ∨ ∃ rest, s.agenda = .clock :: rest) → step s = .next t →
    (t.txLog = s.txLog ∧ (t.rxq = s.rxq ∨ ∃ b, s.rxq = b :: t.rxq))
      ∨ (t.rxq = s.rxq ∧ ∃ b, t.txLog = s.txLog ++ [b])

/-- 20_memory.md R68: which move writes which buffer byte: a host write while BUSY = 0, or a block step, which is a clock
(an empty agenda is one, log 7), of RSP_PAY or of BUILD_RUN. -/
def Obligations.BufferBytesChangeOnlyByTheirWriters : Prop :=
  ∀ (s t : State) (a : Nat), s.agenda.head? ≠ some .reset → step s = .next t → byteAt t a ≠ byteAt s a →
    (s.busy = false ∧ 0x100 ≤ a ∧ a ≤ 0x1FE
        ∧ ∃ x v rest, s.agenda = .host (.access (.write x v)) :: rest ∧ x.toNat = a)
      ∨ (isClock s ∧ s.busy = true ∧ s.fsm = .rspPay ∧ a = 0x200 + s.idx.toNat ∧ a ≤ 0x2FE)
      ∨ (isClock s ∧ s.busy = true ∧ s.fsm = .buildRun ∧ a = 0x400 + s.idx.toNat ∧ a ≤ 0x505)

/-- 10_state.md R31: the points at which CSUM is written, all of them block steps (a clock; an empty agenda is one,
log 7), and reset. -/
def Obligations.CsumChangesOnlyAtItsThreePoints : Prop :=
  ∀ s t : State, s.agenda.head? ≠ some .reset → step s = .next t → t.csum ≠ s.csum →
    isClock s ∧ s.busy = true
      ∧ ((s.fsm = .csumRun ∧ s.len.toNat ≤ s.idx.toNat ∧ t.csum = s.acc)
        ∨ (s.fsm = .buildRun ∧ s.idx.toNat = 4 + s.len.toNat ∧ t.csum = s.acc)
        ∨ (t.fsm = .rspCsum ∧ t.csum = t.acc))

/-- 10_state.md R38: STATUS's flags change only by Start (a host write to OP while BUSY = 0), by Finish (a block step
that ends the operation), and by reset; `seen` only by a block step of a state that runs CsumStep, by the entry of
BUILD_RUN after DRAIN_DISCARD or of RSP_SOF0 after ACK1, which run CsumInit, by the Start of an operation whose first
state runs CsumInit, and by reset. A block step is a clock (an empty agenda is one, log 7). -/
def Obligations.FlagsChangeOnlyByStartFinishAndReset : Prop :=
  ∀ s t : State, s.agenda.head? ≠ some .reset → step s = .next t →
    (statusByte t ≠ statusByte s →
        (isClock s ∧ s.busy = true ∧ t.busy = false ∧ t.fsm = .idle)
          ∨ (s.busy = false ∧ ∃ v rest, s.agenda = .host (.access (.write 0x000 v)) :: rest))
      ∧ (t.seen ≠ s.seen →
        (isClock s ∧ s.busy = true
            ∧ (s.fsm ∈ [FsmState.csumRun, .buildRun, .rspCmdh, .rspCmdl, .rspLen, .rspPay]
              ∨ (s.fsm = .drainDiscard ∧ t.fsm = .buildRun) ∨ (s.fsm = .ack1 ∧ t.fsm = .rspSof0)))
          ∨ (s.busy = false ∧ t.fsm ∈ [FsmState.csumRun, .buildRun, .rspSof0]
            ∧ ∃ v rest, s.agenda = .host (.access (.write 0x000 v)) :: rest))

/-- 00_scope.md R12: block steps are fair: with the control invariant, an agenda without a wait loop is used up in as
many steps as it has moves, and from then on every step is a clock: the model's form of the interleaving (log 7).
Without the invariant the same holds of every run that answers. -/
def Obligations.AFiniteAgendaIsUsedUp : Prop :=
  (∀ s : State, Inv s → Move.host .wait ∉ s.agenda → ∃ t, run s.agenda.length s = .next t ∧ t.agenda = [])
    ∧ (∀ s t : State, Move.host .wait ∉ s.agenda → run s.agenda.length s = .next t → t.agenda = [])

/-- 20_memory.md R60, R63: the transport's moves touch the transport alone. That an arrival is never refused, however
many bytes wait, is the model's choice (log 4). The last clause, another agent's pop, is the model's choice too
(log 15). -/
def Obligations.TransportMovesTouchTheTransportAlone : Prop :=
  ∀ (s : State) (rest : List Move),
    (∀ bs, s.agenda = .arrive bs :: rest → step s = .next { s with agenda := rest, rxq := s.rxq ++ bs })
      ∧ (∀ b, s.agenda = .setTxReady b :: rest → step s = .next { s with agenda := rest, txReady := b })
      ∧ (∀ b, s.agenda = .setTxEmpty b :: rest → step s = .next { s with agenda := rest, txEmpty := b })
      ∧ (s.agenda = .steal :: rest → step s = .next { s with agenda := rest, rxq := s.rxq.tail })

/-- 30_encoding.md R94, 20_memory.md R53: one pass of the loop `wait` reads STATUS and changes no state of SPF-1 or of the
transport; it ends at the first read with bit 0 clear. The record of the value read (log 11), and that exactly one move
falls between two reads, the agenda's next if it is not the host's and else a clock (log 10), are the model's choices. -/
def Obligations.WaitPassReadsStatusOnce : Prop :=
  ∀ (s : State) (rest : List Move), s.agenda = .host .wait :: rest →
    (s.busy = false → step s = .next { s with agenda := rest, hostLog := s.hostLog ++ [statusByte s] })
      ∧ (s.busy = true → (rest = [] ∨ ∃ x, rest.head? = some (.host x)) →
        step s = .next { s with
          agenda := .clock :: .host .wait :: rest, hostLog := s.hostLog ++ [statusByte s] })
      ∧ (∀ m rest', s.busy = true → rest = m :: rest' → (∀ x, m ≠ .host x) →
        step s = .next { s with
          agenda := m :: .host .wait :: rest', hostLog := s.hostLog ++ [statusByte s] })
end

