-- ==== Sys2Proof/Laws/State.lean ====
section
/-!
SUPPORT. What each named update of State does to each field, one lemma per field, so that no proof unfolds an update.
-/
namespace Sys2Proof.Machine

variable (s : State)

/-! ## The start-time clears -/

@[simp] theorem clearResults_op : (clearResults s).op = s.op := rfl
@[simp] theorem clearResults_busy : (clearResults s).busy = s.busy := rfl
@[simp] theorem clearResults_done : (clearResults s).done = false := rfl
@[simp] theorem clearResults_ok : (clearResults s).ok = false := rfl
@[simp] theorem clearResults_err : (clearResults s).err = .none := rfl
@[simp] theorem clearResults_cmd : (clearResults s).cmd = s.cmd := rfl
@[simp] theorem clearResults_len : (clearResults s).len = s.len := rfl
@[simp] theorem clearResults_expCmd : (clearResults s).expCmd = s.expCmd := rfl
@[simp] theorem clearResults_rxLen : (clearResults s).rxLen = s.rxLen := rfl
@[simp] theorem clearResults_csum : (clearResults s).csum = s.csum := rfl
@[simp] theorem clearResults_failState : (clearResults s).failState = 0x00 := rfl
@[simp] theorem clearResults_failByte : (clearResults s).failByte = 0x00 := rfl
@[simp] theorem clearResults_fsm : (clearResults s).fsm = s.fsm := rfl
@[simp] theorem clearResults_idx : (clearResults s).idx = s.idx := rfl
@[simp] theorem clearResults_acc : (clearResults s).acc = s.acc := rfl
@[simp] theorem clearResults_seen : (clearResults s).seen = s.seen := rfl
@[simp] theorem clearResults_poll : (clearResults s).poll = s.poll := rfl
@[simp] theorem clearResults_k : (clearResults s).k = s.k := rfl
@[simp] theorem clearResults_mem : (clearResults s).mem = s.mem := rfl
@[simp] theorem clearResults_rxq : (clearResults s).rxq = s.rxq := rfl
@[simp] theorem clearResults_txLog : (clearResults s).txLog = s.txLog := rfl
@[simp] theorem clearResults_txReady : (clearResults s).txReady = s.txReady := rfl
@[simp] theorem clearResults_txEmpty : (clearResults s).txEmpty = s.txEmpty := rfl
@[simp] theorem clearResults_agenda : (clearResults s).agenda = s.agenda := rfl
@[simp] theorem clearResults_hostLog : (clearResults s).hostLog = s.hostLog := rfl
@[simp] theorem clearResults_bufEpoch : (clearResults s).bufEpoch = s.bufEpoch := rfl
@[simp] theorem clearResults_rxDraws : (clearResults s).rxDraws = s.rxDraws := rfl

/-! ## Storing a buffer byte -/

@[simp] theorem storeAt_op (a : Nat) (v : Byte) : (storeAt a v s).op = s.op := rfl
@[simp] theorem storeAt_busy (a : Nat) (v : Byte) : (storeAt a v s).busy = s.busy := rfl
@[simp] theorem storeAt_done (a : Nat) (v : Byte) : (storeAt a v s).done = s.done := rfl
@[simp] theorem storeAt_ok (a : Nat) (v : Byte) : (storeAt a v s).ok = s.ok := rfl
@[simp] theorem storeAt_err (a : Nat) (v : Byte) : (storeAt a v s).err = s.err := rfl
@[simp] theorem storeAt_cmd (a : Nat) (v : Byte) : (storeAt a v s).cmd = s.cmd := rfl
@[simp] theorem storeAt_len (a : Nat) (v : Byte) : (storeAt a v s).len = s.len := rfl
@[simp] theorem storeAt_expCmd (a : Nat) (v : Byte) : (storeAt a v s).expCmd = s.expCmd := rfl
@[simp] theorem storeAt_rxLen (a : Nat) (v : Byte) : (storeAt a v s).rxLen = s.rxLen := rfl
@[simp] theorem storeAt_csum (a : Nat) (v : Byte) : (storeAt a v s).csum = s.csum := rfl
@[simp] theorem storeAt_failState (a : Nat) (v : Byte) : (storeAt a v s).failState = s.failState := rfl
@[simp] theorem storeAt_failByte (a : Nat) (v : Byte) : (storeAt a v s).failByte = s.failByte := rfl
@[simp] theorem storeAt_fsm (a : Nat) (v : Byte) : (storeAt a v s).fsm = s.fsm := rfl
@[simp] theorem storeAt_idx (a : Nat) (v : Byte) : (storeAt a v s).idx = s.idx := rfl
@[simp] theorem storeAt_acc (a : Nat) (v : Byte) : (storeAt a v s).acc = s.acc := rfl
@[simp] theorem storeAt_seen (a : Nat) (v : Byte) : (storeAt a v s).seen = s.seen := rfl
@[simp] theorem storeAt_poll (a : Nat) (v : Byte) : (storeAt a v s).poll = s.poll := rfl
@[simp] theorem storeAt_k (a : Nat) (v : Byte) : (storeAt a v s).k = s.k := rfl
@[simp] theorem storeAt_mem (a : Nat) (v : Byte) : (storeAt a v s).mem = memWrite s.mem a v := rfl
@[simp] theorem storeAt_rxq (a : Nat) (v : Byte) : (storeAt a v s).rxq = s.rxq := rfl
@[simp] theorem storeAt_txLog (a : Nat) (v : Byte) : (storeAt a v s).txLog = s.txLog := rfl
@[simp] theorem storeAt_txReady (a : Nat) (v : Byte) : (storeAt a v s).txReady = s.txReady := rfl
@[simp] theorem storeAt_txEmpty (a : Nat) (v : Byte) : (storeAt a v s).txEmpty = s.txEmpty := rfl
@[simp] theorem storeAt_agenda (a : Nat) (v : Byte) : (storeAt a v s).agenda = s.agenda := rfl
@[simp] theorem storeAt_hostLog (a : Nat) (v : Byte) : (storeAt a v s).hostLog = s.hostLog := rfl
@[simp] theorem storeAt_bufEpoch (a : Nat) (v : Byte) : (storeAt a v s).bufEpoch = s.bufEpoch := rfl
@[simp] theorem storeAt_rxDraws (a : Nat) (v : Byte) : (storeAt a v s).rxDraws = s.rxDraws := rfl

/-! ## RxPop -/

@[simp] theorem rxPop_op : (rxPop s).op = s.op := rfl
@[simp] theorem rxPop_busy : (rxPop s).busy = s.busy := rfl
@[simp] theorem rxPop_done : (rxPop s).done = s.done := rfl
@[simp] theorem rxPop_ok : (rxPop s).ok = s.ok := rfl
@[simp] theorem rxPop_err : (rxPop s).err = s.err := rfl
@[simp] theorem rxPop_cmd : (rxPop s).cmd = s.cmd := rfl
@[simp] theorem rxPop_len : (rxPop s).len = s.len := rfl
@[simp] theorem rxPop_expCmd : (rxPop s).expCmd = s.expCmd := rfl
@[simp] theorem rxPop_rxLen : (rxPop s).rxLen = s.rxLen := rfl
@[simp] theorem rxPop_csum : (rxPop s).csum = s.csum := rfl
@[simp] theorem rxPop_failState : (rxPop s).failState = s.failState := rfl
@[simp] theorem rxPop_failByte : (rxPop s).failByte = s.failByte := rfl
@[simp] theorem rxPop_fsm : (rxPop s).fsm = s.fsm := rfl
@[simp] theorem rxPop_idx : (rxPop s).idx = s.idx := rfl
@[simp] theorem rxPop_acc : (rxPop s).acc = s.acc := rfl
@[simp] theorem rxPop_seen : (rxPop s).seen = s.seen := rfl
@[simp] theorem rxPop_poll : (rxPop s).poll = s.poll := rfl
@[simp] theorem rxPop_k : (rxPop s).k = s.k := rfl
@[simp] theorem rxPop_mem : (rxPop s).mem = s.mem := rfl
@[simp] theorem rxPop_rxq : (rxPop s).rxq = popQueue s.rxq := rfl
@[simp] theorem rxPop_txLog : (rxPop s).txLog = s.txLog := rfl
@[simp] theorem rxPop_txReady : (rxPop s).txReady = s.txReady := rfl
@[simp] theorem rxPop_txEmpty : (rxPop s).txEmpty = s.txEmpty := rfl
@[simp] theorem rxPop_agenda : (rxPop s).agenda = s.agenda := rfl
@[simp] theorem rxPop_hostLog : (rxPop s).hostLog = s.hostLog := rfl
@[simp] theorem rxPop_bufEpoch : (rxPop s).bufEpoch = s.bufEpoch := rfl
@[simp] theorem rxPop_rxDraws : (rxPop s).rxDraws = if s.rxq.isEmpty then s.rxDraws + 1 else s.rxDraws := rfl

/-! ## TxPush -/

@[simp] theorem txPush_op (b : Byte) : (txPush b s).op = s.op := rfl
@[simp] theorem txPush_busy (b : Byte) : (txPush b s).busy = s.busy := rfl
@[simp] theorem txPush_done (b : Byte) : (txPush b s).done = s.done := rfl
@[simp] theorem txPush_ok (b : Byte) : (txPush b s).ok = s.ok := rfl
@[simp] theorem txPush_err (b : Byte) : (txPush b s).err = s.err := rfl
@[simp] theorem txPush_cmd (b : Byte) : (txPush b s).cmd = s.cmd := rfl
@[simp] theorem txPush_len (b : Byte) : (txPush b s).len = s.len := rfl
@[simp] theorem txPush_expCmd (b : Byte) : (txPush b s).expCmd = s.expCmd := rfl
@[simp] theorem txPush_rxLen (b : Byte) : (txPush b s).rxLen = s.rxLen := rfl
@[simp] theorem txPush_csum (b : Byte) : (txPush b s).csum = s.csum := rfl
@[simp] theorem txPush_failState (b : Byte) : (txPush b s).failState = s.failState := rfl
@[simp] theorem txPush_failByte (b : Byte) : (txPush b s).failByte = s.failByte := rfl
@[simp] theorem txPush_fsm (b : Byte) : (txPush b s).fsm = s.fsm := rfl
@[simp] theorem txPush_idx (b : Byte) : (txPush b s).idx = s.idx := rfl
@[simp] theorem txPush_acc (b : Byte) : (txPush b s).acc = s.acc := rfl
@[simp] theorem txPush_seen (b : Byte) : (txPush b s).seen = s.seen := rfl
@[simp] theorem txPush_poll (b : Byte) : (txPush b s).poll = s.poll := rfl
@[simp] theorem txPush_k (b : Byte) : (txPush b s).k = s.k := rfl
@[simp] theorem txPush_mem (b : Byte) : (txPush b s).mem = s.mem := rfl
@[simp] theorem txPush_rxq (b : Byte) : (txPush b s).rxq = s.rxq := rfl
@[simp] theorem txPush_txLog (b : Byte) : (txPush b s).txLog = s.txLog ++ [b] := rfl
@[simp] theorem txPush_txReady (b : Byte) : (txPush b s).txReady = s.txReady := rfl
@[simp] theorem txPush_txEmpty (b : Byte) : (txPush b s).txEmpty = s.txEmpty := rfl
@[simp] theorem txPush_agenda (b : Byte) : (txPush b s).agenda = s.agenda := rfl
@[simp] theorem txPush_hostLog (b : Byte) : (txPush b s).hostLog = s.hostLog := rfl
@[simp] theorem txPush_bufEpoch (b : Byte) : (txPush b s).bufEpoch = s.bufEpoch := rfl
@[simp] theorem txPush_rxDraws (b : Byte) : (txPush b s).rxDraws = s.rxDraws := rfl

/-! ## CsumInit -/

@[simp] theorem csumInit_op : (csumInit s).op = s.op := rfl
@[simp] theorem csumInit_busy : (csumInit s).busy = s.busy := rfl
@[simp] theorem csumInit_done : (csumInit s).done = s.done := rfl
@[simp] theorem csumInit_ok : (csumInit s).ok = s.ok := rfl
@[simp] theorem csumInit_err : (csumInit s).err = s.err := rfl
@[simp] theorem csumInit_cmd : (csumInit s).cmd = s.cmd := rfl
@[simp] theorem csumInit_len : (csumInit s).len = s.len := rfl
@[simp] theorem csumInit_expCmd : (csumInit s).expCmd = s.expCmd := rfl
@[simp] theorem csumInit_rxLen : (csumInit s).rxLen = s.rxLen := rfl
@[simp] theorem csumInit_csum : (csumInit s).csum = s.csum := rfl
@[simp] theorem csumInit_failState : (csumInit s).failState = s.failState := rfl
@[simp] theorem csumInit_failByte : (csumInit s).failByte = s.failByte := rfl
@[simp] theorem csumInit_fsm : (csumInit s).fsm = s.fsm := rfl
@[simp] theorem csumInit_idx : (csumInit s).idx = s.idx := rfl
@[simp] theorem csumInit_acc : (csumInit s).acc = Config.csumSeed := rfl
@[simp] theorem csumInit_seen : (csumInit s).seen = false := rfl
@[simp] theorem csumInit_poll : (csumInit s).poll = s.poll := rfl
@[simp] theorem csumInit_k : (csumInit s).k = s.k := rfl
@[simp] theorem csumInit_mem : (csumInit s).mem = s.mem := rfl
@[simp] theorem csumInit_rxq : (csumInit s).rxq = s.rxq := rfl
@[simp] theorem csumInit_txLog : (csumInit s).txLog = s.txLog := rfl
@[simp] theorem csumInit_txReady : (csumInit s).txReady = s.txReady := rfl
@[simp] theorem csumInit_txEmpty : (csumInit s).txEmpty = s.txEmpty := rfl
@[simp] theorem csumInit_agenda : (csumInit s).agenda = s.agenda := rfl
@[simp] theorem csumInit_hostLog : (csumInit s).hostLog = s.hostLog := rfl
@[simp] theorem csumInit_bufEpoch : (csumInit s).bufEpoch = s.bufEpoch := rfl
@[simp] theorem csumInit_rxDraws : (csumInit s).rxDraws = s.rxDraws := rfl

/-! ## CsumStep -/

@[simp] theorem csumStep_op (b : Byte) : (csumStep b s).op = s.op := rfl
@[simp] theorem csumStep_busy (b : Byte) : (csumStep b s).busy = s.busy := rfl
@[simp] theorem csumStep_done (b : Byte) : (csumStep b s).done = s.done := rfl
@[simp] theorem csumStep_ok (b : Byte) : (csumStep b s).ok = s.ok := rfl
@[simp] theorem csumStep_err (b : Byte) : (csumStep b s).err = s.err := rfl
@[simp] theorem csumStep_cmd (b : Byte) : (csumStep b s).cmd = s.cmd := rfl
@[simp] theorem csumStep_len (b : Byte) : (csumStep b s).len = s.len := rfl
@[simp] theorem csumStep_expCmd (b : Byte) : (csumStep b s).expCmd = s.expCmd := rfl
@[simp] theorem csumStep_rxLen (b : Byte) : (csumStep b s).rxLen = s.rxLen := rfl
@[simp] theorem csumStep_csum (b : Byte) : (csumStep b s).csum = s.csum := rfl
@[simp] theorem csumStep_failState (b : Byte) : (csumStep b s).failState = s.failState := rfl
@[simp] theorem csumStep_failByte (b : Byte) : (csumStep b s).failByte = s.failByte := rfl
@[simp] theorem csumStep_fsm (b : Byte) : (csumStep b s).fsm = s.fsm := rfl
@[simp] theorem csumStep_idx (b : Byte) : (csumStep b s).idx = s.idx := rfl
@[simp] theorem csumStep_acc (b : Byte) : (csumStep b s).acc = csumAcc s.acc s.seen b := rfl
@[simp] theorem csumStep_seen (b : Byte) : (csumStep b s).seen = csumSeen s.seen b := rfl
@[simp] theorem csumStep_poll (b : Byte) : (csumStep b s).poll = s.poll := rfl
@[simp] theorem csumStep_k (b : Byte) : (csumStep b s).k = s.k := rfl
@[simp] theorem csumStep_mem (b : Byte) : (csumStep b s).mem = s.mem := rfl
@[simp] theorem csumStep_rxq (b : Byte) : (csumStep b s).rxq = s.rxq := rfl
@[simp] theorem csumStep_txLog (b : Byte) : (csumStep b s).txLog = s.txLog := rfl
@[simp] theorem csumStep_txReady (b : Byte) : (csumStep b s).txReady = s.txReady := rfl
@[simp] theorem csumStep_txEmpty (b : Byte) : (csumStep b s).txEmpty = s.txEmpty := rfl
@[simp] theorem csumStep_agenda (b : Byte) : (csumStep b s).agenda = s.agenda := rfl
@[simp] theorem csumStep_hostLog (b : Byte) : (csumStep b s).hostLog = s.hostLog := rfl
@[simp] theorem csumStep_bufEpoch (b : Byte) : (csumStep b s).bufEpoch = s.bufEpoch := rfl
@[simp] theorem csumStep_rxDraws (b : Byte) : (csumStep b s).rxDraws = s.rxDraws := rfl

/-! ## Enter -/

@[simp] theorem enter_op (st : FsmState) : (enter st s).op = s.op := rfl
@[simp] theorem enter_busy (st : FsmState) : (enter st s).busy = s.busy := rfl
@[simp] theorem enter_done (st : FsmState) : (enter st s).done = s.done := rfl
@[simp] theorem enter_ok (st : FsmState) : (enter st s).ok = s.ok := rfl
@[simp] theorem enter_err (st : FsmState) : (enter st s).err = s.err := rfl
@[simp] theorem enter_cmd (st : FsmState) : (enter st s).cmd = s.cmd := rfl
@[simp] theorem enter_len (st : FsmState) : (enter st s).len = s.len := rfl
@[simp] theorem enter_expCmd (st : FsmState) : (enter st s).expCmd = s.expCmd := rfl
@[simp] theorem enter_rxLen (st : FsmState) : (enter st s).rxLen = s.rxLen := rfl
@[simp] theorem enter_csum (st : FsmState) :
    (enter st s).csum = if entryLatchesCsum st then s.acc else s.csum := rfl
@[simp] theorem enter_failState (st : FsmState) : (enter st s).failState = s.failState := rfl
@[simp] theorem enter_failByte (st : FsmState) : (enter st s).failByte = s.failByte := rfl
@[simp] theorem enter_fsm (st : FsmState) : (enter st s).fsm = st := rfl
@[simp] theorem enter_idx (st : FsmState) : (enter st s).idx = if entryClearsIdx st then 0 else s.idx := rfl
@[simp] theorem enter_acc (st : FsmState) :
    (enter st s).acc = if entryInitsCsum st then Config.csumSeed else s.acc := rfl
@[simp] theorem enter_seen (st : FsmState) : (enter st s).seen = if entryInitsCsum st then false else s.seen := rfl
@[simp] theorem enter_poll (st : FsmState) : (enter st s).poll = 0 := rfl
@[simp] theorem enter_k (st : FsmState) : (enter st s).k = s.k := rfl
@[simp] theorem enter_mem (st : FsmState) : (enter st s).mem = s.mem := rfl
@[simp] theorem enter_rxq (st : FsmState) : (enter st s).rxq = s.rxq := rfl
@[simp] theorem enter_txLog (st : FsmState) : (enter st s).txLog = s.txLog := rfl
@[simp] theorem enter_txReady (st : FsmState) : (enter st s).txReady = s.txReady := rfl
@[simp] theorem enter_txEmpty (st : FsmState) : (enter st s).txEmpty = s.txEmpty := rfl
@[simp] theorem enter_agenda (st : FsmState) : (enter st s).agenda = s.agenda := rfl
@[simp] theorem enter_hostLog (st : FsmState) : (enter st s).hostLog = s.hostLog := rfl
@[simp] theorem enter_bufEpoch (st : FsmState) : (enter st s).bufEpoch = s.bufEpoch := rfl
@[simp] theorem enter_rxDraws (st : FsmState) : (enter st s).rxDraws = s.rxDraws := rfl

/-! ## Finish -/

@[simp] theorem finish_op (code : ErrCode) : (finish code s).op = s.op := rfl
@[simp] theorem finish_busy (code : ErrCode) : (finish code s).busy = false := rfl
@[simp] theorem finish_done (code : ErrCode) : (finish code s).done = true := rfl
@[simp] theorem finish_ok (code : ErrCode) : (finish code s).ok = (code == .none) := rfl
@[simp] theorem finish_err (code : ErrCode) : (finish code s).err = code := rfl
@[simp] theorem finish_cmd (code : ErrCode) : (finish code s).cmd = s.cmd := rfl
@[simp] theorem finish_len (code : ErrCode) : (finish code s).len = s.len := rfl
@[simp] theorem finish_expCmd (code : ErrCode) : (finish code s).expCmd = s.expCmd := rfl
@[simp] theorem finish_rxLen (code : ErrCode) : (finish code s).rxLen = s.rxLen := rfl
@[simp] theorem finish_csum (code : ErrCode) : (finish code s).csum = s.csum := rfl
@[simp] theorem finish_failState (code : ErrCode) :
    (finish code s).failState = if recordsState code then stateByte s.fsm else s.failState := rfl
@[simp] theorem finish_failByte (code : ErrCode) : (finish code s).failByte = s.failByte := rfl
@[simp] theorem finish_fsm (code : ErrCode) : (finish code s).fsm = .idle := rfl
@[simp] theorem finish_idx (code : ErrCode) : (finish code s).idx = s.idx := rfl
@[simp] theorem finish_acc (code : ErrCode) : (finish code s).acc = s.acc := rfl
@[simp] theorem finish_seen (code : ErrCode) : (finish code s).seen = s.seen := rfl
@[simp] theorem finish_poll (code : ErrCode) : (finish code s).poll = s.poll := rfl
@[simp] theorem finish_k (code : ErrCode) : (finish code s).k = s.k := rfl
@[simp] theorem finish_mem (code : ErrCode) : (finish code s).mem = s.mem := rfl
@[simp] theorem finish_rxq (code : ErrCode) : (finish code s).rxq = s.rxq := rfl
@[simp] theorem finish_txLog (code : ErrCode) : (finish code s).txLog = s.txLog := rfl
@[simp] theorem finish_txReady (code : ErrCode) : (finish code s).txReady = s.txReady := rfl
@[simp] theorem finish_txEmpty (code : ErrCode) : (finish code s).txEmpty = s.txEmpty := rfl
@[simp] theorem finish_agenda (code : ErrCode) : (finish code s).agenda = s.agenda := rfl
@[simp] theorem finish_hostLog (code : ErrCode) : (finish code s).hostLog = s.hostLog := rfl
@[simp] theorem finish_bufEpoch (code : ErrCode) : (finish code s).bufEpoch = s.bufEpoch := rfl
@[simp] theorem finish_rxDraws (code : ErrCode) : (finish code s).rxDraws = s.rxDraws := rfl

/-! ## A comparison failure -/

@[simp] theorem failCompare_op (code : ErrCode) (b : Byte) : (failCompare code b s).op = s.op := rfl
@[simp] theorem failCompare_busy (code : ErrCode) (b : Byte) : (failCompare code b s).busy = false := rfl
@[simp] theorem failCompare_done (code : ErrCode) (b : Byte) : (failCompare code b s).done = true := rfl
@[simp] theorem failCompare_ok (code : ErrCode) (b : Byte) : (failCompare code b s).ok = (code == .none) := rfl
@[simp] theorem failCompare_err (code : ErrCode) (b : Byte) : (failCompare code b s).err = code := rfl
@[simp] theorem failCompare_cmd (code : ErrCode) (b : Byte) : (failCompare code b s).cmd = s.cmd := rfl
@[simp] theorem failCompare_len (code : ErrCode) (b : Byte) : (failCompare code b s).len = s.len := rfl
@[simp] theorem failCompare_expCmd (code : ErrCode) (b : Byte) : (failCompare code b s).expCmd = s.expCmd := rfl
@[simp] theorem failCompare_rxLen (code : ErrCode) (b : Byte) : (failCompare code b s).rxLen = s.rxLen := rfl
@[simp] theorem failCompare_csum (code : ErrCode) (b : Byte) : (failCompare code b s).csum = s.csum := rfl
@[simp] theorem failCompare_failState (code : ErrCode) (b : Byte) :
    (failCompare code b s).failState = if recordsState code then stateByte s.fsm else s.failState := rfl
@[simp] theorem failCompare_failByte (code : ErrCode) (b : Byte) : (failCompare code b s).failByte = b := rfl
@[simp] theorem failCompare_fsm (code : ErrCode) (b : Byte) : (failCompare code b s).fsm = .idle := rfl
@[simp] theorem failCompare_idx (code : ErrCode) (b : Byte) : (failCompare code b s).idx = s.idx := rfl
@[simp] theorem failCompare_acc (code : ErrCode) (b : Byte) : (failCompare code b s).acc = s.acc := rfl
@[simp] theorem failCompare_seen (code : ErrCode) (b : Byte) : (failCompare code b s).seen = s.seen := rfl
@[simp] theorem failCompare_poll (code : ErrCode) (b : Byte) : (failCompare code b s).poll = s.poll := rfl
@[simp] theorem failCompare_k (code : ErrCode) (b : Byte) : (failCompare code b s).k = s.k := rfl
@[simp] theorem failCompare_mem (code : ErrCode) (b : Byte) : (failCompare code b s).mem = s.mem := rfl
@[simp] theorem failCompare_rxq (code : ErrCode) (b : Byte) : (failCompare code b s).rxq = s.rxq := rfl
@[simp] theorem failCompare_txLog (code : ErrCode) (b : Byte) : (failCompare code b s).txLog = s.txLog := rfl
@[simp] theorem failCompare_txReady (code : ErrCode) (b : Byte) : (failCompare code b s).txReady = s.txReady := rfl
@[simp] theorem failCompare_txEmpty (code : ErrCode) (b : Byte) : (failCompare code b s).txEmpty = s.txEmpty := rfl
@[simp] theorem failCompare_agenda (code : ErrCode) (b : Byte) : (failCompare code b s).agenda = s.agenda := rfl
@[simp] theorem failCompare_hostLog (code : ErrCode) (b : Byte) : (failCompare code b s).hostLog = s.hostLog := rfl
@[simp] theorem failCompare_bufEpoch (code : ErrCode) (b : Byte) :
    (failCompare code b s).bufEpoch = s.bufEpoch := rfl
@[simp] theorem failCompare_rxDraws (code : ErrCode) (b : Byte) : (failCompare code b s).rxDraws = s.rxDraws := rfl

/-! ## Start of a reserved code -/

@[simp] theorem startReserved_op : (startReserved s).op = s.op := rfl
@[simp] theorem startReserved_busy : (startReserved s).busy = false := rfl
@[simp] theorem startReserved_done : (startReserved s).done = true := rfl
@[simp] theorem startReserved_ok : (startReserved s).ok = false := rfl
@[simp] theorem startReserved_err : (startReserved s).err = .illegalOp := rfl
@[simp] theorem startReserved_cmd : (startReserved s).cmd = s.cmd := rfl
@[simp] theorem startReserved_len : (startReserved s).len = s.len := rfl
@[simp] theorem startReserved_expCmd : (startReserved s).expCmd = s.expCmd := rfl
@[simp] theorem startReserved_rxLen : (startReserved s).rxLen = s.rxLen := rfl
@[simp] theorem startReserved_csum : (startReserved s).csum = s.csum := rfl
@[simp] theorem startReserved_failState : (startReserved s).failState = 0x00 := rfl
@[simp] theorem startReserved_failByte : (startReserved s).failByte = 0x00 := rfl
@[simp] theorem startReserved_fsm : (startReserved s).fsm = .idle := rfl
@[simp] theorem startReserved_idx : (startReserved s).idx = s.idx := rfl
@[simp] theorem startReserved_acc : (startReserved s).acc = s.acc := rfl
@[simp] theorem startReserved_seen : (startReserved s).seen = s.seen := rfl
@[simp] theorem startReserved_poll : (startReserved s).poll = s.poll := rfl
@[simp] theorem startReserved_k : (startReserved s).k = s.k := rfl
@[simp] theorem startReserved_mem : (startReserved s).mem = s.mem := rfl
@[simp] theorem startReserved_rxq : (startReserved s).rxq = s.rxq := rfl
@[simp] theorem startReserved_txLog : (startReserved s).txLog = s.txLog := rfl
@[simp] theorem startReserved_txReady : (startReserved s).txReady = s.txReady := rfl
@[simp] theorem startReserved_txEmpty : (startReserved s).txEmpty = s.txEmpty := rfl
@[simp] theorem startReserved_agenda : (startReserved s).agenda = s.agenda := rfl
@[simp] theorem startReserved_hostLog : (startReserved s).hostLog = s.hostLog := rfl
@[simp] theorem startReserved_bufEpoch : (startReserved s).bufEpoch = s.bufEpoch := rfl
@[simp] theorem startReserved_rxDraws : (startReserved s).rxDraws = s.rxDraws := rfl

/-! ## The record of a host read -/

@[simp] theorem logRead_op (v : Byte) : (logRead v s).op = s.op := rfl
@[simp] theorem logRead_busy (v : Byte) : (logRead v s).busy = s.busy := rfl
@[simp] theorem logRead_done (v : Byte) : (logRead v s).done = s.done := rfl
@[simp] theorem logRead_ok (v : Byte) : (logRead v s).ok = s.ok := rfl
@[simp] theorem logRead_err (v : Byte) : (logRead v s).err = s.err := rfl
@[simp] theorem logRead_cmd (v : Byte) : (logRead v s).cmd = s.cmd := rfl
@[simp] theorem logRead_len (v : Byte) : (logRead v s).len = s.len := rfl
@[simp] theorem logRead_expCmd (v : Byte) : (logRead v s).expCmd = s.expCmd := rfl
@[simp] theorem logRead_rxLen (v : Byte) : (logRead v s).rxLen = s.rxLen := rfl
@[simp] theorem logRead_csum (v : Byte) : (logRead v s).csum = s.csum := rfl
@[simp] theorem logRead_failState (v : Byte) : (logRead v s).failState = s.failState := rfl
@[simp] theorem logRead_failByte (v : Byte) : (logRead v s).failByte = s.failByte := rfl
@[simp] theorem logRead_fsm (v : Byte) : (logRead v s).fsm = s.fsm := rfl
@[simp] theorem logRead_idx (v : Byte) : (logRead v s).idx = s.idx := rfl
@[simp] theorem logRead_acc (v : Byte) : (logRead v s).acc = s.acc := rfl
@[simp] theorem logRead_seen (v : Byte) : (logRead v s).seen = s.seen := rfl
@[simp] theorem logRead_poll (v : Byte) : (logRead v s).poll = s.poll := rfl
@[simp] theorem logRead_k (v : Byte) : (logRead v s).k = s.k := rfl
@[simp] theorem logRead_mem (v : Byte) : (logRead v s).mem = s.mem := rfl
@[simp] theorem logRead_rxq (v : Byte) : (logRead v s).rxq = s.rxq := rfl
@[simp] theorem logRead_txLog (v : Byte) : (logRead v s).txLog = s.txLog := rfl
@[simp] theorem logRead_txReady (v : Byte) : (logRead v s).txReady = s.txReady := rfl
@[simp] theorem logRead_txEmpty (v : Byte) : (logRead v s).txEmpty = s.txEmpty := rfl
@[simp] theorem logRead_agenda (v : Byte) : (logRead v s).agenda = s.agenda := rfl
@[simp] theorem logRead_hostLog (v : Byte) : (logRead v s).hostLog = s.hostLog ++ [v] := rfl
@[simp] theorem logRead_bufEpoch (v : Byte) : (logRead v s).bufEpoch = s.bufEpoch := rfl
@[simp] theorem logRead_rxDraws (v : Byte) : (logRead v s).rxDraws = s.rxDraws := rfl

/-! ## One pass of the `wait` loop -/

@[simp] theorem hostWait_op : (hostWait s).op = s.op := rfl
@[simp] theorem hostWait_busy : (hostWait s).busy = s.busy := rfl
@[simp] theorem hostWait_done : (hostWait s).done = s.done := rfl
@[simp] theorem hostWait_ok : (hostWait s).ok = s.ok := rfl
@[simp] theorem hostWait_err : (hostWait s).err = s.err := rfl
@[simp] theorem hostWait_cmd : (hostWait s).cmd = s.cmd := rfl
@[simp] theorem hostWait_len : (hostWait s).len = s.len := rfl
@[simp] theorem hostWait_expCmd : (hostWait s).expCmd = s.expCmd := rfl
@[simp] theorem hostWait_rxLen : (hostWait s).rxLen = s.rxLen := rfl
@[simp] theorem hostWait_csum : (hostWait s).csum = s.csum := rfl
@[simp] theorem hostWait_failState : (hostWait s).failState = s.failState := rfl
@[simp] theorem hostWait_failByte : (hostWait s).failByte = s.failByte := rfl
@[simp] theorem hostWait_fsm : (hostWait s).fsm = s.fsm := rfl
@[simp] theorem hostWait_idx : (hostWait s).idx = s.idx := rfl
@[simp] theorem hostWait_acc : (hostWait s).acc = s.acc := rfl
@[simp] theorem hostWait_seen : (hostWait s).seen = s.seen := rfl
@[simp] theorem hostWait_poll : (hostWait s).poll = s.poll := rfl
@[simp] theorem hostWait_k : (hostWait s).k = s.k := rfl
@[simp] theorem hostWait_mem : (hostWait s).mem = s.mem := rfl
@[simp] theorem hostWait_rxq : (hostWait s).rxq = s.rxq := rfl
@[simp] theorem hostWait_txLog : (hostWait s).txLog = s.txLog := rfl
@[simp] theorem hostWait_txReady : (hostWait s).txReady = s.txReady := rfl
@[simp] theorem hostWait_txEmpty : (hostWait s).txEmpty = s.txEmpty := rfl
@[simp] theorem hostWait_bufEpoch : (hostWait s).bufEpoch = s.bufEpoch := rfl
@[simp] theorem hostWait_rxDraws : (hostWait s).rxDraws = s.rxDraws := rfl
@[simp] theorem hostWait_hostLog : (hostWait s).hostLog = s.hostLog ++ [statusByte s] := rfl
@[simp] theorem hostWait_agenda :
    (hostWait s).agenda = if (statusByte s).getLsbD 0 then waitAgenda s.agenda else s.agenda := rfl
@[simp] theorem waitAgenda_nil : waitAgenda [] = [.clock, .host .wait] := rfl
@[simp] theorem waitAgenda_host (x : HostItem) (rest : List Move) :
    waitAgenda (.host x :: rest) = .clock :: .host .wait :: .host x :: rest := rfl

/-- STATUS bit 0 is BUSY (10_state.md Table 10-2). -/
theorem statusByte_bit_busy : (statusByte s).getLsbD 0 = s.busy := by
  have h : ∀ b d o e, (statusOf b d o e).getLsbD 0 = b := by
    intro b d o e; cases b <;> cases d <;> cases o <;> cases e <;> rfl
  exact h _ _ _ _

/-- Everything one pass of the loop does (30_encoding.md R94). -/
theorem hostWait_eq :
    hostWait s = { s with
      hostLog := s.hostLog ++ [statusByte s]
      agenda := if s.busy then waitAgenda s.agenda else s.agenda } := by
  simp only [hostWait, statusByte_bit_busy]

/-- Before the next read of the loop comes the agenda's next move, if it is not the host's. -/
theorem waitAgenda_other {m : Move} (h : ∀ x, m ≠ .host x) (rest : List Move) :
    waitAgenda (m :: rest) = m :: .host .wait :: rest := by
  cases m with
  | host x => exact absurd rfl (h x)
  | _ => rfl

/-! ## The record of a success -/

@[simp] theorem succeeded_op : (succeeded s).op = s.op := rfl
@[simp] theorem succeeded_busy : (succeeded s).busy = false := rfl
@[simp] theorem succeeded_done : (succeeded s).done = true := rfl
@[simp] theorem succeeded_ok : (succeeded s).ok = true := rfl
@[simp] theorem succeeded_err : (succeeded s).err = .none := rfl
@[simp] theorem succeeded_cmd : (succeeded s).cmd = s.cmd := rfl
@[simp] theorem succeeded_len : (succeeded s).len = s.len := rfl
@[simp] theorem succeeded_expCmd : (succeeded s).expCmd = s.expCmd := rfl
@[simp] theorem succeeded_rxLen : (succeeded s).rxLen = s.rxLen := rfl
@[simp] theorem succeeded_csum : (succeeded s).csum = s.csum := rfl
@[simp] theorem succeeded_failState : (succeeded s).failState = 0x00 := rfl
@[simp] theorem succeeded_failByte : (succeeded s).failByte = 0x00 := rfl
@[simp] theorem succeeded_fsm : (succeeded s).fsm = .idle := rfl
@[simp] theorem succeeded_idx : (succeeded s).idx = s.idx := rfl
@[simp] theorem succeeded_acc : (succeeded s).acc = s.acc := rfl
@[simp] theorem succeeded_seen : (succeeded s).seen = s.seen := rfl
@[simp] theorem succeeded_poll : (succeeded s).poll = s.poll := rfl
@[simp] theorem succeeded_k : (succeeded s).k = s.k := rfl
@[simp] theorem succeeded_mem : (succeeded s).mem = s.mem := rfl
@[simp] theorem succeeded_rxq : (succeeded s).rxq = s.rxq := rfl
@[simp] theorem succeeded_txLog : (succeeded s).txLog = s.txLog := rfl
@[simp] theorem succeeded_txReady : (succeeded s).txReady = s.txReady := rfl
@[simp] theorem succeeded_txEmpty : (succeeded s).txEmpty = s.txEmpty := rfl
@[simp] theorem succeeded_agenda : (succeeded s).agenda = s.agenda := rfl
@[simp] theorem succeeded_hostLog : (succeeded s).hostLog = s.hostLog := rfl
@[simp] theorem succeeded_bufEpoch : (succeeded s).bufEpoch = s.bufEpoch := rfl
@[simp] theorem succeeded_rxDraws : (succeeded s).rxDraws = s.rxDraws := rfl

/-! ## The record of a failure -/

@[simp] theorem failedWith_op (code : ErrCode) (b : Byte) : (failedWith code b s).op = s.op := rfl
@[simp] theorem failedWith_busy (code : ErrCode) (b : Byte) : (failedWith code b s).busy = false := rfl
@[simp] theorem failedWith_done (code : ErrCode) (b : Byte) : (failedWith code b s).done = true := rfl
@[simp] theorem failedWith_ok (code : ErrCode) (b : Byte) : (failedWith code b s).ok = false := rfl
@[simp] theorem failedWith_err (code : ErrCode) (b : Byte) : (failedWith code b s).err = code := rfl
@[simp] theorem failedWith_cmd (code : ErrCode) (b : Byte) : (failedWith code b s).cmd = s.cmd := rfl
@[simp] theorem failedWith_len (code : ErrCode) (b : Byte) : (failedWith code b s).len = s.len := rfl
@[simp] theorem failedWith_expCmd (code : ErrCode) (b : Byte) : (failedWith code b s).expCmd = s.expCmd := rfl
@[simp] theorem failedWith_rxLen (code : ErrCode) (b : Byte) : (failedWith code b s).rxLen = s.rxLen := rfl
@[simp] theorem failedWith_csum (code : ErrCode) (b : Byte) : (failedWith code b s).csum = s.csum := rfl
@[simp] theorem failedWith_failState (code : ErrCode) (b : Byte) :
    (failedWith code b s).failState = stateByte s.fsm := rfl
@[simp] theorem failedWith_failByte (code : ErrCode) (b : Byte) : (failedWith code b s).failByte = b := rfl
@[simp] theorem failedWith_fsm (code : ErrCode) (b : Byte) : (failedWith code b s).fsm = .idle := rfl
@[simp] theorem failedWith_idx (code : ErrCode) (b : Byte) : (failedWith code b s).idx = s.idx := rfl
@[simp] theorem failedWith_acc (code : ErrCode) (b : Byte) : (failedWith code b s).acc = s.acc := rfl
@[simp] theorem failedWith_seen (code : ErrCode) (b : Byte) : (failedWith code b s).seen = s.seen := rfl
@[simp] theorem failedWith_poll (code : ErrCode) (b : Byte) : (failedWith code b s).poll = s.poll := rfl
@[simp] theorem failedWith_k (code : ErrCode) (b : Byte) : (failedWith code b s).k = s.k := rfl
@[simp] theorem failedWith_mem (code : ErrCode) (b : Byte) : (failedWith code b s).mem = s.mem := rfl
@[simp] theorem failedWith_rxq (code : ErrCode) (b : Byte) : (failedWith code b s).rxq = s.rxq := rfl
@[simp] theorem failedWith_txLog (code : ErrCode) (b : Byte) : (failedWith code b s).txLog = s.txLog := rfl
@[simp] theorem failedWith_txReady (code : ErrCode) (b : Byte) : (failedWith code b s).txReady = s.txReady := rfl
@[simp] theorem failedWith_txEmpty (code : ErrCode) (b : Byte) : (failedWith code b s).txEmpty = s.txEmpty := rfl
@[simp] theorem failedWith_agenda (code : ErrCode) (b : Byte) : (failedWith code b s).agenda = s.agenda := rfl
@[simp] theorem failedWith_hostLog (code : ErrCode) (b : Byte) : (failedWith code b s).hostLog = s.hostLog := rfl
@[simp] theorem failedWith_bufEpoch (code : ErrCode) (b : Byte) :
    (failedWith code b s).bufEpoch = s.bufEpoch := rfl
@[simp] theorem failedWith_rxDraws (code : ErrCode) (b : Byte) : (failedWith code b s).rxDraws = s.rxDraws := rfl

/-! ## The record of a Start -/

@[simp] theorem startedIn_op (st : FsmState) : (startedIn st s).op = s.op := rfl
@[simp] theorem startedIn_busy (st : FsmState) : (startedIn st s).busy = true := rfl
@[simp] theorem startedIn_done (st : FsmState) : (startedIn st s).done = false := rfl
@[simp] theorem startedIn_ok (st : FsmState) : (startedIn st s).ok = false := rfl
@[simp] theorem startedIn_err (st : FsmState) : (startedIn st s).err = .none := rfl
@[simp] theorem startedIn_cmd (st : FsmState) : (startedIn st s).cmd = s.cmd := rfl
@[simp] theorem startedIn_len (st : FsmState) : (startedIn st s).len = s.len := rfl
@[simp] theorem startedIn_expCmd (st : FsmState) : (startedIn st s).expCmd = s.expCmd := rfl
@[simp] theorem startedIn_rxLen (st : FsmState) : (startedIn st s).rxLen = s.rxLen := rfl
@[simp] theorem startedIn_csum (st : FsmState) : (startedIn st s).csum = s.csum := rfl
@[simp] theorem startedIn_failState (st : FsmState) : (startedIn st s).failState = 0x00 := rfl
@[simp] theorem startedIn_failByte (st : FsmState) : (startedIn st s).failByte = 0x00 := rfl
@[simp] theorem startedIn_fsm (st : FsmState) : (startedIn st s).fsm = st := rfl
@[simp] theorem startedIn_idx (st : FsmState) : (startedIn st s).idx = s.idx := rfl
@[simp] theorem startedIn_acc (st : FsmState) : (startedIn st s).acc = s.acc := rfl
@[simp] theorem startedIn_seen (st : FsmState) : (startedIn st s).seen = s.seen := rfl
@[simp] theorem startedIn_poll (st : FsmState) : (startedIn st s).poll = 0 := rfl
@[simp] theorem startedIn_k (st : FsmState) : (startedIn st s).k = s.k := rfl
@[simp] theorem startedIn_mem (st : FsmState) : (startedIn st s).mem = s.mem := rfl
@[simp] theorem startedIn_rxq (st : FsmState) : (startedIn st s).rxq = s.rxq := rfl
@[simp] theorem startedIn_txLog (st : FsmState) : (startedIn st s).txLog = s.txLog := rfl
@[simp] theorem startedIn_txReady (st : FsmState) : (startedIn st s).txReady = s.txReady := rfl
@[simp] theorem startedIn_txEmpty (st : FsmState) : (startedIn st s).txEmpty = s.txEmpty := rfl
@[simp] theorem startedIn_agenda (st : FsmState) : (startedIn st s).agenda = s.agenda := rfl
@[simp] theorem startedIn_hostLog (st : FsmState) : (startedIn st s).hostLog = s.hostLog := rfl
@[simp] theorem startedIn_bufEpoch (st : FsmState) : (startedIn st s).bufEpoch = s.bufEpoch := rfl
@[simp] theorem startedIn_rxDraws (st : FsmState) : (startedIn st s).rxDraws = s.rxDraws := rfl

/-! ## Reset -/

@[simp] theorem resetEvent_busy : (resetEvent s).busy = false := rfl
@[simp] theorem resetEvent_fsm : (resetEvent s).fsm = .idle := rfl
@[simp] theorem resetEvent_mem : (resetEvent s).mem = [] := rfl
@[simp] theorem resetEvent_rxq : (resetEvent s).rxq = s.rxq := rfl
@[simp] theorem resetEvent_txLog : (resetEvent s).txLog = s.txLog := rfl
@[simp] theorem resetEvent_txReady : (resetEvent s).txReady = s.txReady := rfl
@[simp] theorem resetEvent_txEmpty : (resetEvent s).txEmpty = s.txEmpty := rfl
@[simp] theorem resetEvent_agenda : (resetEvent s).agenda = s.agenda := rfl
@[simp] theorem resetEvent_hostLog : (resetEvent s).hostLog = s.hostLog := rfl
@[simp] theorem resetEvent_bufEpoch : (resetEvent s).bufEpoch = s.bufEpoch + 1 := rfl
@[simp] theorem resetEvent_rxDraws : (resetEvent s).rxDraws = s.rxDraws := rfl

/-! ## The queue -/

@[simp] theorem popQueue_nil : popQueue [] = [] := rfl
@[simp] theorem popQueue_cons (b : Byte) (bs : List Byte) : popQueue (b :: bs) = bs := rfl

end Sys2Proof.Machine
end

