-- ==== Sys2Proof/Laws/Memory.lean ====
section
/-!
SUPPORT. Buffer memory: reading after writing, the canonical form, and the buffers as spans.
-/
namespace Sys2Proof.Machine

/-! ## One byte -/

theorem memFind_memWrite_self (m : List Host.Cell) (a : Nat) (v : Byte) :
    memFind (memWrite m a v) a = some v := by
  induction m with
  | nil => simp [memWrite, memFind]
  | cons c rest ih =>
    unfold memWrite
    split
    · simp [memFind]
    · split
      · simp [memFind]
      · next h₁ h₂ => simp [memFind, ih, Ne.symm h₂]

theorem memFind_memWrite_other (m : List Host.Cell) (a b : Nat) (v : Byte) (h : b ≠ a) :
    memFind (memWrite m a v) b = memFind m b := by
  induction m with
  | nil => simp [memWrite, memFind, Ne.symm h]
  | cons c rest ih =>
    unfold memWrite
    split
    · simp [memFind, Ne.symm h]
    · split
      · next h₂ => subst h₂; simp [memFind, Ne.symm h]
      · simp [memFind, ih]

/-- A read after a write: the value written at its address, everything else as before. -/
theorem memFind_memWrite (m : List Host.Cell) (a b : Nat) (v : Byte) :
    memFind (memWrite m a v) b = if b = a then some v else memFind m b := by
  split
  · next h => rw [h, memFind_memWrite_self]
  · next h => exact memFind_memWrite_other m a b v h

/-- `byteAt` reads memory and the draw alone. -/
theorem byteAt_congr {s t : State} (hm : t.mem = s.mem) (he : t.bufEpoch = s.bufEpoch) (a : Nat) :
    byteAt t a = byteAt s a := by
  simp [byteAt, hm, he]

/-- A stored byte is read back at its address, and every other byte is as before. -/
theorem byteAt_of_memWrite {s t : State} {a : Nat} {v : Byte} (hm : t.mem = memWrite s.mem a v)
    (he : t.bufEpoch = s.bufEpoch) (x : Nat) : byteAt t x = if x = a then v else byteAt s x := by
  simp only [byteAt, hm, he, memFind_memWrite]
  split <;> rfl

theorem byteAt_storeAt (s : State) (a : Nat) (v : Byte) (x : Nat) :
    byteAt (storeAt a v s) x = if x = a then v else byteAt s x :=
  byteAt_of_memWrite (s := s) (t := storeAt a v s) rfl rfl x

/-! ## The canonical form -/

theorem risingFrom_mono {m : List Host.Cell} {low low' : Nat} (h : low' ≤ low)
    (hm : risingFrom low m = true) : risingFrom low' m = true := by
  cases m with
  | nil => rfl
  | cons c rest =>
    simp only [risingFrom, Bool.and_eq_true, decide_eq_true_eq] at hm ⊢
    exact ⟨by omega, hm.2⟩

theorem risingFrom_memWrite {m : List Host.Cell} {low a : Nat} {v : Byte} (ha : low ≤ a)
    (hm : risingFrom low m = true) : risingFrom low (memWrite m a v) = true := by
  induction m generalizing low with
  | nil => simp [memWrite, risingFrom, ha]
  | cons c rest ih =>
    simp only [risingFrom, Bool.and_eq_true, decide_eq_true_eq] at hm
    unfold memWrite
    split
    · next h =>
      simp only [risingFrom, Bool.and_eq_true, decide_eq_true_eq]
      exact ⟨ha, by omega, hm.2⟩
    · split
      · next h => subst h; simp [risingFrom, ha, hm.2]
      · next h₁ h₂ =>
        simp only [risingFrom, Bool.and_eq_true, decide_eq_true_eq]
        exact ⟨hm.1, ih (by omega) hm.2⟩

theorem all_memWrite {m : List Host.Cell} {a : Nat} {v : Byte} (ha : isBufferAddr a = true)
    (hm : (m.all fun c => isBufferAddr c.1) = true) :
    ((memWrite m a v).all fun c => isBufferAddr c.1) = true := by
  induction m with
  | nil => simp [memWrite, ha]
  | cons c rest ih =>
    simp only [List.all_cons, Bool.and_eq_true] at hm
    unfold memWrite
    split
    · simp only [List.all_cons, Bool.and_eq_true]; exact ⟨ha, hm.1, hm.2⟩
    · split
      · simp only [List.all_cons, Bool.and_eq_true]; exact ⟨ha, hm.2⟩
      · simp only [List.all_cons, Bool.and_eq_true]; exact ⟨hm.1, ih hm.2⟩

/-- Writing a buffer byte keeps the canonical form. -/
theorem memWrite_keeps_wf {m : List Host.Cell} {a : Nat} {v : Byte} (ha : isBufferAddr a = true)
    (hm : Memory.wf m = true) : Memory.wf (memWrite m a v) = true := by
  simp only [Memory.wf, Bool.and_eq_true] at hm ⊢
  exact ⟨risingFrom_memWrite (Nat.zero_le a) hm.1, all_memWrite ha hm.2⟩

theorem reset_mem_wf : Memory.wf State.reset.mem = true := rfl

/-- The buffer addresses of 20_memory.md Table 20-1, in numbers. -/
theorem isBufferAddr_iff (a : Nat) :
    isBufferAddr a = true ↔
      (0x100 ≤ a ∧ a ≤ 0x1FE) ∨ (0x200 ≤ a ∧ a ≤ 0x2FE) ∨ (0x400 ≤ a ∧ a ≤ 0x505) := by
  simp only [isBufferAddr, Bool.or_eq_true, Bool.and_eq_true, decide_eq_true_eq]
  simp only [Config.txbufSize, Config.rxbufSize, Config.framebufSize, Config.txbufBase,
    Config.rxbufBase, Config.framebufBase]
  omega

/-- TXBUF's addresses, in numbers. -/
theorem isTxbufAddr_iff (a : Nat) : isTxbufAddr a = true ↔ 0x100 ≤ a ∧ a ≤ 0x1FE := by
  simp only [isTxbufAddr, Bool.and_eq_true, decide_eq_true_eq]
  simp only [Config.txbufSize, Config.txbufBase]
  omega

@[simp] theorem bufBase_tx : bufBase .tx = 0x100 := rfl
@[simp] theorem bufBase_rx : bufBase .rx = 0x200 := rfl
@[simp] theorem bufBase_frame : bufBase .frame = 0x400 := rfl
@[simp] theorem bufSize_tx : bufSize .tx = 255 := rfl
@[simp] theorem bufSize_rx : bufSize .rx = 255 := rfl
@[simp] theorem bufSize_frame : bufSize .frame = 262 := rfl

/-- Every byte of a buffer is a buffer address. -/
theorem isBufferAddr_bufBase (b : Buffer) (i : Nat) (h : i < bufSize b) :
    isBufferAddr (bufBase b + i) = true := by
  rw [isBufferAddr_iff]
  cases b <;> simp only [bufBase_tx, bufBase_rx, bufBase_frame, bufSize_tx, bufSize_rx,
    bufSize_frame] at h ⊢ <;> omega

theorem isBufferAddr_of_isTxbufAddr {a : Nat} (h : isTxbufAddr a = true) : isBufferAddr a = true := by
  rw [isTxbufAddr_iff] at h
  rw [isBufferAddr_iff]
  exact .inl h

/-! ## Buffers -/

theorem bufRead_of_lt {b : Buffer} {i : Nat} (s : State) (h : i < bufSize b) :
    bufRead b i s = some (byteAt s (bufBase b + i)) := by simp [bufRead, h]

theorem bufWrite_of_lt {b : Buffer} {i : Nat} (v : Byte) (s : State) (h : i < bufSize b) :
    bufWrite b i v s = some (storeAt (bufBase b + i) v s) := by simp [bufWrite, h]

/-- What a buffer write answers, if it answers. -/
theorem bufWrite_eq_some {b : Buffer} {i : Nat} {v : Byte} {s t : State}
    (h : bufWrite b i v s = some t) : i < bufSize b ∧ t = storeAt (bufBase b + i) v s := by
  unfold bufWrite at h
  split at h
  · next hi => exact ⟨hi, (Option.some.inj h).symm⟩
  · cases h

/-- A buffer write keeps the canonical form of memory. -/
theorem bufWrite_keeps_wf {b : Buffer} {i : Nat} {v : Byte} {s t : State} (h : bufWrite b i v s = some t)
    (hm : Memory.wf s.mem = true) : Memory.wf t.mem = true := by
  obtain ⟨hi, rfl⟩ := bufWrite_eq_some h
  exact memWrite_keeps_wf (isBufferAddr_bufBase b i hi) hm

/-- What a buffer read answers, if it answers. -/
theorem bufRead_eq_some {b : Buffer} {i : Nat} {v : Byte} {s : State}
    (h : bufRead b i s = some v) : i < bufSize b ∧ v = byteAt s (bufBase b + i) := by
  unfold bufRead at h
  split at h
  · next hi => exact ⟨hi, (Option.some.inj h).symm⟩
  · cases h

@[simp] theorem bufSpan_zero (b : Buffer) (s : State) : bufSpan b 0 s = [] := rfl

@[simp] theorem bufSpan_length (b : Buffer) (n : Nat) (s : State) : (bufSpan b n s).length = n := by
  simp [bufSpan]

theorem bufSpan_succ (b : Buffer) (n : Nat) (s : State) :
    bufSpan b (n + 1) s = bufSpan b n s ++ [byteAt s (bufBase b + n)] := by
  simp [bufSpan, List.range_succ]

/-- Two states that agree on a span's bytes have the same span. -/
theorem bufSpan_congr {b : Buffer} {n : Nat} {s t : State}
    (h : ∀ i, i < n → byteAt t (bufBase b + i) = byteAt s (bufBase b + i)) :
    bufSpan b n t = bufSpan b n s := by
  simp only [bufSpan]
  exact List.map_congr_left fun i hi => h i (List.mem_range.1 hi)

theorem bufSpan_eq_of_mem {b : Buffer} {n : Nat} {s t : State} (hm : t.mem = s.mem)
    (he : t.bufEpoch = s.bufEpoch) : bufSpan b n t = bufSpan b n s :=
  bufSpan_congr fun _ _ => byteAt_congr hm he _

theorem bufSpan_getElem (b : Buffer) (n : Nat) (s : State) (i : Nat) (h : i < (bufSpan b n s).length) :
    (bufSpan b n s)[i] = byteAt s (bufBase b + i) := by
  simp [bufSpan]

end Sys2Proof.Machine
end

