-- ==== Sys2Proof/Laws/Checksum.lean ====
section
/-!
SUPPORT. The checksum engine: its 9-bit sum is the byte sum, and a scan is a fold over the bytes.
-/
namespace Sys2Proof.Machine

/-- The single subtraction of 256 gives the sum modulo 256 (41_checksum.md R133). -/
theorem csumAdd_eq_add (a b : Byte) : csumAdd a b = a + b := by
  apply BitVec.eq_of_toNat_eq
  have ha := a.isLt
  have hb := b.isLt
  have h9 : (a.setWidth 9 + b.setWidth 9).toNat = a.toNat + b.toNat := by
    simp only [BitVec.toNat_add, BitVec.toNat_setWidth]; omega
  simp only [csumAdd, h9]
  split
  · simp only [BitVec.toNat_setWidth, BitVec.toNat_sub, h9, BitVec.toNat_add]
    simp only [BitVec.toNat_ofNat]; omega
  · simp only [BitVec.toNat_setWidth, h9, BitVec.toNat_add]

/-- The 9-bit sum before the subtraction is at most 510 (41_checksum.md R133). -/
theorem csum_sum_le (a b : Byte) : (a.setWidth 9 + b.setWidth 9).toNat ≤ 510 := by
  have ha := a.isLt
  have hb := b.isLt
  simp only [BitVec.toNat_add, BitVec.toNat_setWidth]; omega

@[simp] theorem csumScan_nil (acc : Byte) (seen : Bool) : csumScan acc seen [] = (acc, seen) := rfl

theorem csumScan_append (acc : Byte) (seen : Bool) (p q : List Byte) :
    csumScan acc seen (p ++ q) = csumScan (csumScan acc seen p).1 (csumScan acc seen p).2 q := by
  induction p generalizing acc seen with
  | nil => rfl
  | cons b rest ih => exact ih _ _

/-- One more byte at the end of a scan is one more CsumStep (41_checksum.md R136). -/
theorem csumScan_snoc {acc : Byte} {seen : Bool} {p : List Byte} (b : Byte) {a : Byte} {n : Bool}
    (h : (a, n) = csumScan acc seen p) :
    (csumAcc a n b, csumSeen n b) = csumScan acc seen (p ++ [b]) := by
  rw [csumScan_append, ← h]; rfl

theorem checksum_eq (bs : List Byte) : checksum bs = (csumScan 0xAD false bs).1 := rfl

/-- A zero byte is added as nothing. -/
theorem csumScan_zero (acc : Byte) (seen : Bool) (p : List Byte) :
    csumScan acc seen (0x00 :: p) = csumScan acc seen p := by
  have h₁ : csumAcc acc seen 0x00 = acc := by
    simp [csumAcc, csumCounts, csumAdd_eq_add, Config.stopByte]
  have h₂ : csumSeen seen 0x00 = seen := by simp [csumSeen, Config.stopByte]
  change csumScan (csumAcc acc seen 0x00) (csumSeen seen 0x00) p = csumScan acc seen p
  rw [h₁, h₂]

end Sys2Proof.Machine
end

