-- ==== Sys2Proof/Laws/Ops.lean ====
section
/-!
SUPPORT. One lemma per shared operation that says once everything it can do.
-/
namespace Sys2Proof.Machine

/-! ## The polling primitives -/

/-- An empty sample, either way (43_reader.md R171). -/
theorem emptySample_eq (code : ErrCode) (s : State) :
    emptySample code s =
      if s.poll.toNat + 1 = 1000 then finish code { s with poll := s.poll + 1 }
      else { s with poll := s.poll + 1 } := by
  have h : ((s.poll + 1).toNat = Config.pollBudget) ↔ (s.poll.toNat + 1 = 1000) := by
    have := s.poll.isLt
    simp only [Config.pollBudget, BitVec.ofNat_eq_ofNat, BitVec.toNat_add, BitVec.toNat_ofNat]; omega
  simp only [emptySample, h]

/-- AwaitVerify on the three shapes of RXQ. -/
theorem awaitVerify_nil {v : Byte} {e : ErrCode} {k : State → Res} {s : State} (h : s.rxq = []) :
    awaitVerify v e k s = .next (emptySample .timeout s) := by simp [awaitVerify, rxAvail, h]

theorem awaitVerify_match {v : Byte} {e : ErrCode} {k : State → Res} {s : State} {rest : List Byte}
    (h : s.rxq = v :: rest) : awaitVerify v e k s = k { s with rxq := rest } := by
  simp [awaitVerify, rxAvail, rxPeek, rxPop, h]

theorem awaitVerify_mismatch {v b : Byte} {e : ErrCode} {k : State → Res} {s : State} {rest : List Byte}
    (h : s.rxq = b :: rest) (hb : b ≠ v) : awaitVerify v e k s = .next (failCompare e b s) := by
  simp [awaitVerify, rxAvail, rxPeek, h, hb]

/-- Everything AwaitVerify can do. -/
theorem awaitVerify_cases {v : Byte} {e : ErrCode} {k : State → Res} {s : State} :
    (s.rxq = [] ∧ awaitVerify v e k s = .next (emptySample .timeout s))
      ∨ (∃ rest, s.rxq = v :: rest ∧ awaitVerify v e k s = k { s with rxq := rest })
      ∨ (∃ b rest, s.rxq = b :: rest ∧ b ≠ v ∧ awaitVerify v e k s = .next (failCompare e b s)) := by
  cases h : s.rxq with
  | nil => exact .inl ⟨rfl, awaitVerify_nil h⟩
  | cons b rest =>
    by_cases hb : b = v
    · subst hb; exact .inr (.inl ⟨rest, rfl, awaitVerify_match h⟩)
    · exact .inr (.inr ⟨b, rest, rfl, hb, awaitVerify_mismatch h hb⟩)

theorem awaitTake_nil {e : ErrCode} {k : Byte → State → Res} {s : State} (h : s.rxq = []) :
    awaitTake e k s = .next (emptySample e s) := by simp [awaitTake, rxAvail, h]

theorem awaitTake_cons {e : ErrCode} {k : Byte → State → Res} {s : State} {b : Byte} {rest : List Byte}
    (h : s.rxq = b :: rest) : awaitTake e k s = k b { s with rxq := rest } := by
  simp [awaitTake, rxAvail, rxPeek, rxPop, h]

/-- Everything AwaitTake can do. -/
theorem awaitTake_cases {e : ErrCode} {k : Byte → State → Res} {s : State} :
    (s.rxq = [] ∧ awaitTake e k s = .next (emptySample e s))
      ∨ (∃ b rest, s.rxq = b :: rest ∧ awaitTake e k s = k b { s with rxq := rest }) := by
  cases h : s.rxq with
  | nil => exact .inl ⟨rfl, awaitTake_nil h⟩
  | cons b rest => exact .inr ⟨b, rest, rfl, awaitTake_cons h⟩

/-! ## RxPop -/

theorem rxPop_cons {s : State} {b : Byte} {rest : List Byte} (h : s.rxq = b :: rest) :
    rxPop s = { s with rxq := rest } := by simp [rxPop, h]

theorem rxPop_nil {s : State} (h : s.rxq = []) : rxPop s = { s with rxDraws := s.rxDraws + 1 } := by
  cases s; simp_all [rxPop]

/-! ## Advance -/

/-- If Advance answers, the pair is in Table 40-1, and it finishes with NONE or enters the successor. -/
theorem advance_next {i : Instr} {s t : State} (h : advance i s = .next t) :
    (successor s.fsm i = some .idle ∧ t = finish .none s)
      ∨ ∃ st, st ≠ .idle ∧ successor s.fsm i = some st ∧ t = enter st s := by
  unfold advance at h
  cases hs : successor s.fsm i with
  | none => rw [hs] at h; cases h
  | some st =>
    rw [hs] at h
    by_cases hi : st = .idle
    · subst hi; exact .inl ⟨rfl, (Host.Outcome.next.inj h).symm⟩
    · refine .inr ⟨st, hi, rfl, ?_⟩
      cases st <;> first | exact absurd rfl hi | exact (Host.Outcome.next.inj h).symm

/-- Advance to IDLE is Finish(NONE). -/
theorem advance_finish {i : Instr} {s : State} (h : successor s.fsm i = some .idle) :
    advance i s = .next (finish .none s) := by simp [advance, h]

/-- Advance to another state is Enter. -/
theorem advance_enter {i : Instr} {s : State} {st : FsmState} (h : successor s.fsm i = some st)
    (hst : st ≠ .idle) : advance i s = .next (enter st s) := by
  unfold advance
  rw [h]
  cases st <;> simp_all

/-! ## Start -/

/-- Start of an operation without a phase is the record of a success; with a first phase, that phase is entered with
the results cleared and BUSY set (40_dispatch.md R110, R115). -/
theorem startOp_cases (phases : List FsmState) (clears : Bool) (s : State) :
    (phases = [] ∧ startOp phases clears s = succeeded s)
      ∨ ∃ first rest, phases = first :: rest
        ∧ startOp phases clears s =
          enter first { clearResults s with rxLen := if clears then 0x00 else s.rxLen, busy := true } := by
  cases phases with
  | nil => exact .inl ⟨rfl, rfl⟩
  | cons first rest => exact .inr ⟨first, rest, rfl, rfl⟩

/-! ## The operations -/

/-- Every operation's meaning is `operate` over its row of 30_encoding.md Table 30-1. -/
theorem exec_eq_operate (i : Instr) (s : State) :
    exec i s = operate i (phasesOf i) (i == .readResp || i == .execReq) s := by
  cases i <;> rfl

/-- A running operation in one of its phases makes the block step of that state. -/
theorem exec_busy {i : Instr} {s : State} (hb : s.busy = true) (hp : s.fsm ∈ phasesOf i) :
    exec i s = stateRule i s := by
  simp [exec_eq_operate, operate, hb, hp]

/-- An operation begins with Start. -/
theorem exec_idle {i : Instr} {s : State} (hb : s.busy = false) :
    exec i s = .next (startOp (phasesOf i) (i == .readResp || i == .execReq) s) := by
  simp [exec_eq_operate, operate, hb]

/-- If an operation answers, it started, or it made the block step of a phase of its own. -/
theorem exec_next {i : Instr} {s t : State} (h : exec i s = .next t) :
    (s.busy = false ∧ t = startOp (phasesOf i) (i == .readResp || i == .execReq) s)
      ∨ (s.busy = true ∧ s.fsm ∈ phasesOf i ∧ stateRule i s = .next t) := by
  rw [exec_eq_operate] at h
  unfold operate at h
  split at h
  · next hb =>
    split at h
    · next hp => exact .inr ⟨hb, hp, h⟩
    · cases h
  · next hb => exact .inl ⟨by simpa using hb, (Host.Outcome.next.inj h).symm⟩

end Sys2Proof.Machine
end

