-- ==== Sys2Proof/Laws/Step.lean ====
section
/-!
SUPPORT. What a step can do, move by move, and how runs compose.
-/
namespace Sys2Proof.Machine

/-! ## The next move -/

theorem step_nil {s : State} (h : s.agenda = []) : step s = clockTick s := by
  simp [step, nextMove, h]

theorem step_cons {s : State} {m : Move} {rest : List Move} (h : s.agenda = m :: rest) :
    step s = performMove m { s with agenda := rest } := by
  simp [step, nextMove, h]

/-! ## A clock -/

theorem clockTick_idle {s : State} (h : s.busy = false) : clockTick s = .next s := by
  simp [clockTick, h]

theorem clockTick_busy {s : State} {i : Instr} (h : s.busy = true) (hd : decodeOp s.op = .ok i) :
    clockTick s = exec i s := by
  simp [clockTick, h, hd]

/-- A clock of an operation in one of its phases is the block step of that state. -/
theorem clockTick_rule {s : State} {i : Instr} (h : s.busy = true) (hd : decodeOp s.op = .ok i)
    (hp : s.fsm ∈ phasesOf i) : clockTick s = stateRule i s := by
  rw [clockTick_busy h hd, exec_busy h hp]

/-- If a clock answers, nothing happened, or the operation in OP made the block step of a phase of its own. -/
theorem clockTick_next {s t : State} (h : clockTick s = .next t) :
    (s.busy = false ∧ t = s)
      ∨ ∃ i, s.busy = true ∧ decodeOp s.op = .ok i ∧ s.fsm ∈ phasesOf i ∧ stateRule i s = .next t := by
  unfold clockTick at h
  split at h
  · next hb =>
    split at h
    · next i hd =>
      obtain ⟨hb', -⟩ | ⟨-, hp, hr⟩ := exec_next h
      · rw [hb] at hb'; cases hb'
      · exact .inr ⟨i, hb, hd, hp, hr⟩
    · cases h
  · next hb => exact .inl ⟨by simpa using hb, (Host.Outcome.next.inj h).symm⟩

/-! ## A host write -/

/-- If a host write answers, it was ignored, it started an operation, it started a reserved code, it wrote an operand
register or a byte of TXBUF, or its address takes no write (20_memory.md R54, R55). -/
theorem hostWrite_next {a : HostAddr} {v : Byte} {s t : State} (h : hostWrite a v s = .next t) :
    (s.busy = true ∧ t = s)
      ∨ (s.busy = false ∧ a = 0x000 ∧ ∃ i, decodeOp v = .ok i
          ∧ t = startOp (phasesOf i) (i == .readResp || i == .execReq) { s with op := v })
      ∨ (s.busy = false ∧ a = 0x000 ∧ (∃ e, decodeOp v = .error e) ∧ t = startReserved { s with op := v })
      ∨ (s.busy = false ∧ a = 0x002 ∧ t = { s with cmd := v })
      ∨ (s.busy = false ∧ a = 0x003 ∧ t = { s with len := v })
      ∨ (s.busy = false ∧ a = 0x004 ∧ t = { s with expCmd := v })
      ∨ (s.busy = false ∧ 0x100 ≤ a.toNat ∧ a.toNat ≤ 0x1FE ∧ t = storeAt a.toNat v s)
      ∨ (s.busy = false ∧ t = s) := by
  unfold hostWrite at h
  split at h
  · next hb => exact .inl ⟨hb, (Host.Outcome.next.inj h).symm⟩
  · next hb =>
    have hb : s.busy = false := by simpa using hb
    right
    unfold hostWriteIdle at h
    split at h
    · next ha =>
      unfold startCode at h
      split at h
      · next i hd =>
        rw [exec_idle (s := { s with op := v }) hb] at h
        exact .inl ⟨hb, ha, i, hd, (Host.Outcome.next.inj h).symm⟩
      · next e hd => exact .inr (.inl ⟨hb, ha, ⟨e, hd⟩, (Host.Outcome.next.inj h).symm⟩)
    · split at h
      · next ha => exact .inr (.inr (.inl ⟨hb, ha, (Host.Outcome.next.inj h).symm⟩))
      · split at h
        · next ha => exact .inr (.inr (.inr (.inl ⟨hb, ha, (Host.Outcome.next.inj h).symm⟩)))
        · split at h
          · next ha => exact .inr (.inr (.inr (.inr (.inl ⟨hb, ha, (Host.Outcome.next.inj h).symm⟩))))
          · split at h
            · next ha =>
              rw [isTxbufAddr_iff] at ha
              exact .inr (.inr (.inr (.inr (.inr (.inl ⟨hb, ha.1, ha.2, (Host.Outcome.next.inj h).symm⟩)))))
            · exact .inr (.inr (.inr (.inr (.inr (.inr ⟨hb, (Host.Outcome.next.inj h).symm⟩)))))

/-! ## Every move -/

/-- If a step answers, what the next move was and what it did; an empty agenda is a clock. -/
theorem step_next {s t : State} (h : step s = .next t) :
    ∃ u : State, u = { s with agenda := s.agenda.tail }
      ∧ (((s.agenda = [] ∨ s.agenda.head? = some .clock) ∧ clockTick u = .next t)
        ∨ (∃ a v, s.agenda.head? = some (.host (.access (.write a v))) ∧ hostWrite a v u = .next t)
        ∨ (∃ a, s.agenda.head? = some (.host (.access (.read a))) ∧ t = logRead (hostRead u a) u)
        ∨ (s.agenda.head? = some (.host .wait) ∧ t = hostWait u)
        ∨ (∃ bs, s.agenda.head? = some (.arrive bs) ∧ t = { u with rxq := u.rxq ++ bs })
        ∨ (∃ b, s.agenda.head? = some (.setTxReady b) ∧ t = { u with txReady := b })
        ∨ (∃ b, s.agenda.head? = some (.setTxEmpty b) ∧ t = { u with txEmpty := b })
        ∨ (s.agenda.head? = some .steal ∧ t = { u with rxq := popQueue u.rxq })
        ∨ (s.agenda.head? = some .reset ∧ t = resetEvent u)) := by
  refine ⟨_, rfl, ?_⟩
  cases ha : s.agenda with
  | nil =>
    rw [step_nil ha] at h
    have hs : { s with agenda := ([] : List Move) } = s := by cases s; simp_all
    exact .inl ⟨.inl rfl, by simpa [hs] using h⟩
  | cons m rest =>
    rw [step_cons ha] at h
    simp only [List.head?_cons, List.tail_cons, Option.some.injEq]
    cases m with
    | clock => exact .inl ⟨.inr rfl, h⟩
    | host x =>
      cases x with
      | access y =>
        cases y with
        | read a => exact .inr (.inr (.inl ⟨a, rfl, (Host.Outcome.next.inj h).symm⟩))
        | write a v => exact .inr (.inl ⟨a, v, rfl, h⟩)
      | wait => exact .inr (.inr (.inr (.inl ⟨rfl, (Host.Outcome.next.inj h).symm⟩)))
    | arrive bs => exact .inr (.inr (.inr (.inr (.inl ⟨bs, rfl, (Host.Outcome.next.inj h).symm⟩))))
    | setTxReady b =>
      exact .inr (.inr (.inr (.inr (.inr (.inl ⟨b, rfl, (Host.Outcome.next.inj h).symm⟩)))))
    | setTxEmpty b =>
      exact .inr (.inr (.inr (.inr (.inr (.inr (.inl ⟨b, rfl, (Host.Outcome.next.inj h).symm⟩))))))
    | steal =>
      exact .inr (.inr (.inr (.inr (.inr (.inr (.inr (.inl ⟨rfl, (Host.Outcome.next.inj h).symm⟩)))))))
    | reset =>
      exact .inr (.inr (.inr (.inr (.inr (.inr (.inr (.inr ⟨rfl, (Host.Outcome.next.inj h).symm⟩)))))))

/-! ## Runs -/

@[simp] theorem run_zero (s : State) : run 0 s = .next s := rfl

theorem core_run_succ (M : Host.Core) (n : Nat) (s t : M.State) (h : M.step s = .next t) :
    M.run (n + 1) s = M.run n t := by
  rw [Host.Core.run, h]

theorem core_run_fault (M : Host.Core) (n : Nat) (s : M.State) (r : M.Fault) (h : M.step s = .fault r) :
    M.run (n + 1) s = .fault r := by
  rw [Host.Core.run, h]

theorem core_run_refused (M : Host.Core) (n : Nat) (s : M.State) (r : M.Refusal)
    (h : M.step s = .refused r) : M.run (n + 1) s = .refused r := by
  rw [Host.Core.run, h]

theorem run_succ {n : Nat} {s t : State} (h : step s = .next t) : run (n + 1) s = run n t :=
  core_run_succ Sys2Proof.core n s t h

theorem run_succ_fault {n : Nat} {s : State} {r : Fault} (h : step s = .fault r) :
    run (n + 1) s = .fault r :=
  core_run_fault Sys2Proof.core n s r h

theorem run_succ_refused {n : Nat} {s : State} {r : Refusal} (h : step s = .refused r) :
    run (n + 1) s = .refused r :=
  core_run_refused Sys2Proof.core n s r h

/-- If a run of one step and more answers, its first step does. -/
theorem run_succ_next {n : Nat} {s t : State} (h : run (n + 1) s = .next t) :
    ∃ u, step s = .next u ∧ run n u = .next t := by
  cases hs : step s with
  | next u => exact ⟨u, rfl, by rwa [run_succ hs] at h⟩
  | fault r => rw [run_succ_fault hs] at h; cases h
  | refused r => rw [run_succ_refused hs] at h; cases h

/-- A run of `m + n` steps is a run of `m` steps and then a run of `n`. -/
theorem run_add {m n : Nat} {s t : State} (h : run m s = .next t) : run (m + n) s = run n t := by
  induction m generalizing s with
  | zero => rw [Nat.zero_add]; rw [run_zero] at h; rw [Host.Outcome.next.inj h]
  | succ m ih =>
    obtain ⟨u, hs, hu⟩ := run_succ_next h
    rw [Nat.succ_add, run_succ hs, ih hu]

/-- One more step at the end of a run. -/
theorem run_snoc {n : Nat} {s t u : State} (h : run n s = .next t) (hs : step t = .next u) :
    run (n + 1) s = .next u := by
  rw [run_add h, run_succ hs, run_zero]

/-- With an empty agenda, a clock of an idle block is a step that changes nothing, for any number of steps. -/
theorem run_idle {s : State} (hb : s.busy = false) (ha : s.agenda = []) (n : Nat) :
    run n s = .next s := by
  induction n with
  | zero => rfl
  | succ n ih => rw [run_succ (t := s) (by rw [step_nil ha, clockTick_idle hb]), ih]

end Sys2Proof.Machine
end

