-- ==== Sys2Proof/Laws/Rules.lean ====
section
/-!
SUPPORT. One lemma per state rule that says once everything the rule can do if it answers, in the terms of Safety.
-/
namespace Sys2Proof.Machine

/-! ## The polling primitives, as outcomes -/

theorem recordsState_ne_none {c : ErrCode} (h : recordsState c = true) : (c == ErrCode.none) = false := by
  cases c <;> first | rfl | cases h

/-- An empty sample is the outcome of 43_reader.md R171. -/
theorem emptySample_outcome {c : ErrCode} (hc : recordsState c = true) (s : State) :
    emptySample c s = emptyOutcome c s := by
  rw [emptySample_eq, emptyOutcome]
  split
  · simp [finish, hc, failedWith, recordsState_ne_none hc]
  · rfl

/-- A comparison failure records the code, the state and the byte (60_exceptions.md R248). -/
theorem failCompare_outcome {c : ErrCode} (hc : recordsState c = true) (b : Byte) (s : State) :
    failCompare c b s = failedWith c b s := by
  simp [failCompare, finish, hc, failedWith, recordsState_ne_none hc]

/-- AwaitVerify is the outcome of 43_reader.md R170, when its continuation answers on a match. -/
theorem awaitVerify_outcome {v : Byte} {e : ErrCode} (he : recordsState e = true) {k : State → Res}
    {go : List Byte → State} {s : State}
    (h : ∀ rest, s.rxq = v :: rest → k { s with rxq := rest } = .next (go rest)) :
    awaitVerify v e k s = .next (verifyOutcome v e go s) := by
  rcases awaitVerify_cases (v := v) (e := e) (k := k) (s := s) with
    ⟨hq, h'⟩ | ⟨rest, hq, h'⟩ | ⟨b, rest, hq, hb, h'⟩
  · rw [h', verifyOutcome, hq, emptySample_outcome rfl]
  · rw [h', verifyOutcome, hq, h rest hq]; simp
  · rw [h', verifyOutcome, hq, failCompare_outcome he]; simp [hb]

/-- If AwaitVerify answers: an empty sample, a mismatch, or the continuation on a match. -/
theorem awaitVerify_next {v : Byte} {e : ErrCode} (he : recordsState e = true) {k : State → Res}
    {s t : State} (h : awaitVerify v e k s = .next t) :
    (s.rxq = [] ∧ t = emptyOutcome .timeout s)
      ∨ (∃ b rest, s.rxq = b :: rest ∧ b ≠ v ∧ t = failedWith e b s)
      ∨ (∃ rest, s.rxq = v :: rest ∧ k { s with rxq := rest } = .next t) := by
  rcases awaitVerify_cases (v := v) (e := e) (k := k) (s := s) with
    ⟨hq, h'⟩ | ⟨rest, hq, h'⟩ | ⟨b, rest, hq, hb, h'⟩
  · rw [h', emptySample_outcome rfl] at h; exact .inl ⟨hq, (Host.Outcome.next.inj h).symm⟩
  · rw [h'] at h; exact .inr (.inr ⟨rest, hq, h⟩)
  · rw [h', failCompare_outcome he] at h
    exact .inr (.inl ⟨b, rest, hq, hb, (Host.Outcome.next.inj h).symm⟩)

/-- If AwaitTake answers: an empty sample, or the continuation on the byte taken. -/
theorem awaitTake_next {e : ErrCode} (he : recordsState e = true) {k : Byte → State → Res} {s t : State}
    (h : awaitTake e k s = .next t) :
    (s.rxq = [] ∧ t = emptyOutcome e s)
      ∨ (∃ b rest, s.rxq = b :: rest ∧ k b { s with rxq := rest } = .next t) := by
  rcases awaitTake_cases (e := e) (k := k) (s := s) with ⟨hq, h'⟩ | ⟨b, rest, hq, h'⟩
  · rw [h', emptySample_outcome he] at h; exact .inl ⟨hq, (Host.Outcome.next.inj h).symm⟩
  · rw [h'] at h; exact .inr ⟨b, rest, hq, h⟩

/-- A wait that only counts: steps that each add one empty sample compose. -/
theorem run_empty_samples {s : State}
    (h : ∀ n, n < 999 → step { s with poll := BitVec.ofNat 10 n } = .next { s with poll := BitVec.ofNat 10 (n + 1) })
    (n : Nat) (hn : n ≤ 999) : run n { s with poll := 0 } = .next { s with poll := BitVec.ofNat 10 n } := by
  induction n with
  | zero => rfl
  | succ n ih => exact run_snoc (ih (by omega)) (h n (by omega))

/-! ## The state rules -/

/-- CSUM_RUN (41_checksum.md R138). -/
theorem csumRunStep_next {i : Instr} {s t : State} (h : csumRunStep i s = .next t) :
    (s.idx.toNat < s.len.toNat
        ∧ t = { csumStep (byteAt s (0x100 + s.idx.toNat)) s with idx := s.idx + 1 })
      ∨ (s.len.toNat ≤ s.idx.toNat ∧ advance i { s with csum := s.acc } = .next t) := by
  unfold csumRunStep at h
  split at h
  · next hi =>
    split at h
    · next b hb =>
      obtain ⟨-, rfl⟩ := bufRead_eq_some hb
      exact .inl ⟨hi, (Host.Outcome.next.inj h).symm⟩
    · cases h
  · next hi => exact .inr ⟨by simpa using hi, h⟩

/-- BUILD_RUN (42_builder.md R151): the byte of the offset goes to FRAMEBUF, and the phase ends at offset N + 6. -/
theorem buildRunStep_next {i : Instr} {s t : State} (h : buildRunStep i s = .next t) :
    ∃ b u, buildByte s s.idx.toNat = some b
      ∧ u = storeAt (0x400 + s.idx.toNat) b (buildRegs s.idx.toNat b s)
      ∧ ((s.idx.toNat = s.len.toNat + 6 ∧ advance i u = .next t)
        ∨ (s.idx.toNat < s.len.toNat + 6 ∧ t = { u with idx := s.idx + 1 })) := by
  unfold buildRunStep at h
  split at h
  · cases h
  · next hle =>
    split at h
    · cases h
    · next b hb =>
      split at h
      · cases h
      · next u hu =>
        obtain ⟨-, rfl⟩ := bufWrite_eq_some hu
        refine ⟨b, _, hb, rfl, ?_⟩
        split at h
        · next he => exact .inl ⟨he, h⟩
        · next he =>
          have hle' : ¬ s.len.toNat + 6 < s.idx.toNat := hle
          have he' : ¬ s.idx.toNat = s.len.toNat + 6 := he
          exact .inr ⟨by omega, (Host.Outcome.next.inj h).symm⟩

/-- TX_SEND (42_builder.md R153). -/
theorem txSendStep_next {i : Instr} {s t : State} (h : txSendStep i s = .next t) :
    (s.txReady = false ∧ t = s)
      ∨ (s.txReady = true ∧ s.idx.toNat = s.len.toNat + 6
        ∧ advance i (txPush (byteAt s (0x400 + s.idx.toNat)) s) = .next t)
      ∨ (s.txReady = true ∧ s.idx.toNat ≠ s.len.toNat + 6
        ∧ t = { txPush (byteAt s (0x400 + s.idx.toNat)) s with idx := s.idx + 1 }) := by
  unfold txSendStep at h
  split at h
  · next hr =>
    split at h
    · cases h
    · next b hb =>
      obtain ⟨-, rfl⟩ := bufRead_eq_some hb
      split at h
      · next he => exact .inr (.inl ⟨hr, he, h⟩)
      · next he => exact .inr (.inr ⟨hr, he, (Host.Outcome.next.inj h).symm⟩)
  · next hr => exact .inl ⟨by simpa using hr, (Host.Outcome.next.inj h).symm⟩

/-- DRAIN_FLUSH (45_buffer_guard.md R220). -/
theorem drainFlushStep_next {s t : State} (h : drainFlushStep s = .next t) :
    (s.txEmpty = false ∧ t = s)
      ∨ (s.txEmpty = true ∧ t = { s with k := s.rxq.length, fsm := .drainDiscard, poll := 0 }) := by
  unfold drainFlushStep at h
  split at h
  · next he => exact .inr ⟨he, (Host.Outcome.next.inj h).symm⟩
  · next he => exact .inl ⟨by simpa using he, (Host.Outcome.next.inj h).symm⟩

/-- DRAIN_DISCARD (45_buffer_guard.md R221). -/
theorem drainDiscardStep_next {i : Instr} {s t : State} (h : drainDiscardStep i s = .next t) :
    (s.k = 0 ∧ advance i s = .next t) ∨ (s.k ≠ 0 ∧ t = { rxPop s with k := s.k - 1 }) := by
  unfold drainDiscardStep at h
  split at h
  · next hk => exact .inl ⟨hk, h⟩
  · next hk => exact .inr ⟨hk, (Host.Outcome.next.inj h).symm⟩

/-- RSP_LEN (43_reader.md R178). -/
theorem rspLenStep_next {s t : State} (h : rspLenStep s = .next t) :
    (s.rxq = [] ∧ t = emptyOutcome .timeout s)
      ∨ ∃ b rest, s.rxq = b :: rest
        ∧ t = enter (if b = 0 then .rspCsum else .rspPay) (csumStep b { s with rxq := rest, rxLen := b }) := by
  obtain h' | ⟨b, rest, hq, hk⟩ := awaitTake_next rfl h
  · exact .inl h'
  · exact .inr ⟨b, rest, hq, (Host.Outcome.next.inj hk).symm⟩

/-- RSP_PAY (43_reader.md R179): the byte goes to RXBUF, and the last one ends the phase. -/
theorem rspPayStep_next {s t : State} (h : rspPayStep s = .next t) :
    (s.rxq = [] ∧ t = emptyOutcome .incomplete s)
      ∨ ∃ b rest u, s.rxq = b :: rest
        ∧ u = csumStep b (storeAt (0x200 + s.idx.toNat) b { s with rxq := rest })
        ∧ ((s.idx.toNat + 1 = s.rxLen.toNat ∧ t = enter .rspCsum u)
          ∨ (s.idx.toNat + 1 ≠ s.rxLen.toNat ∧ t = { u with poll := 0, idx := s.idx + 1 })) := by
  obtain h' | ⟨b, rest, hq, hk⟩ := awaitTake_next rfl h
  · exact .inl h'
  · refine .inr ⟨b, rest, _, hq, rfl, ?_⟩
    split at hk
    · cases hk
    · next u hu =>
      obtain ⟨-, rfl⟩ := bufWrite_eq_some hu
      split at hk
      · next he => exact .inl ⟨he, (Host.Outcome.next.inj hk).symm⟩
      · next he => exact .inr ⟨he, (Host.Outcome.next.inj hk).symm⟩

end Sys2Proof.Machine
end

