-- ==== Sys2Proof/Laws/PerInstr.lean ====
section
/-!
SUPPORT. Statements about each instruction as syntax, made per constructor.
-/
namespace Sys2Proof.Laws

/-! ## One byte, one row (30_encoding.md R80, R83) -/

/-- The instruction is the one byte of its code; the decoder reads that byte as the instruction, whatever follows; and
exactly one row of 30_encoding.md Table 30-1 selects the byte. -/
def OneByteCode.Statement (i : Instr) : Prop :=
  encode i = [opcode i]
    ∧ (∀ rest, decode (opcode i :: rest) = .ok (i, rest))
    ∧ decodeTableWord 8 (opcode i).toNat = some i
    ∧ opcodeTable.filter (fun r => r.selects (opcode i)) = [⟨0xFF, opcode i, i⟩]

theorem OneByteCode.nop : OneByteCode.Statement .nop := ⟨rfl, fun _ => rfl, by decide, by decide⟩
theorem OneByteCode.csum : OneByteCode.Statement .csum := ⟨rfl, fun _ => rfl, by decide, by decide⟩
theorem OneByteCode.build : OneByteCode.Statement .build := ⟨rfl, fun _ => rfl, by decide, by decide⟩
theorem OneByteCode.drain : OneByteCode.Statement .drain := ⟨rfl, fun _ => rfl, by decide, by decide⟩
theorem OneByteCode.send : OneByteCode.Statement .send := ⟨rfl, fun _ => rfl, by decide, by decide⟩
theorem OneByteCode.awaitAck : OneByteCode.Statement .awaitAck := ⟨rfl, fun _ => rfl, by decide, by decide⟩
theorem OneByteCode.readResp : OneByteCode.Statement .readResp := ⟨rfl, fun _ => rfl, by decide, by decide⟩
theorem OneByteCode.execCmd : OneByteCode.Statement .execCmd := ⟨rfl, fun _ => rfl, by decide, by decide⟩
theorem OneByteCode.execReq : OneByteCode.Statement .execReq := ⟨rfl, fun _ => rfl, by decide, by decide⟩

end Sys2Proof.Laws
end

