-- ==== Sys2Proof/Tests/Slice0.lean ====
section
/-!
SUPPORT. The model's own tests: ill-formed terms that WellFormed refuses, codes written out from 30_encoding.md, single
steps with the results that 95_test_vectors.md and the rules give, and, for each statement with hypotheses, a concrete
state that meets them.
-/
open Sys2Proof Sys2Proof.Machine

/-! ## States the tests use -/

/-- An idle block with this code in OP, these bytes in RXQ, and these moves to come. -/
def tIdle (op : Byte) (rxq : List Byte) (ag : List Move) : State :=
  { State.reset with op := op, rxq := rxq, agenda := ag }

/-- A block running the operation `op` in a state, with these bytes in RXQ. -/
def tRun (op : Byte) (st : FsmState) (rxq : List Byte) (ag : List Move) : State :=
  { State.reset with op := op, busy := true, fsm := st, rxq := rxq, agenda := ag }

/-- A block that has just entered CSUM_RUN with LEN = 0. -/
def tCsum (ag : List Move) : State := { tRun 0x01 .csumRun [] ag with acc := 0xAD }

/-- A property of the next state, false when there is none. -/
def tNext (r : Res) (p : State → Bool) : Bool :=
  match r with
  | .next t => p t
  | _ => false

/-! ## WellFormed refuses -/

theorem test_wf_refuses_payload_of_256 : HostMacro.wellFormed (.load (List.replicate 256 0x00)) = false := by
  rw [HostMacro.wellFormed, payloadOk, List.length_replicate]; decide
theorem test_wf_refuses_csum_of_256 : HostMacro.wellFormed (.csum (List.replicate 256 0x00)) = false := by
  rw [HostMacro.wellFormed, payloadOk, List.length_replicate]; decide
theorem test_wf_refuses_build_of_256 :
    HostMacro.wellFormed (.build 0x01 (List.replicate 256 0x00)) = false := by
  rw [HostMacro.wellFormed, payloadOk, List.length_replicate]; decide
theorem test_wf_refuses_send_of_256 :
    HostMacro.wellFormed (.send 0x01 (List.replicate 256 0x00)) = false := by
  rw [HostMacro.wellFormed, payloadOk, List.length_replicate]; decide
theorem test_wf_refuses_exec_cmd_of_256 :
    HostMacro.wellFormed (.execCmd 0x01 (List.replicate 256 0x00)) = false := by
  rw [HostMacro.wellFormed, payloadOk, List.length_replicate]; decide
theorem test_wf_refuses_exec_req_of_256 :
    HostMacro.wellFormed (.execReq 0x01 0x02 (List.replicate 256 0x00)) = false := by
  rw [HostMacro.wellFormed, payloadOk, List.length_replicate]; decide
/-- A read's data bits are 0 (30_encoding.md R93). -/
theorem test_wf_refuses_read_with_data : busWordOk 0x00101 = false := by decide
/-- A write that stands before the `wait` of a running operation counts as meant to take effect (30_encoding.md R95; log 23). -/
theorem test_wf_refuses_write_while_busy :
    hostProgramOk false [startItem .csum, wr Config.addrCmd 0x01] = false := by decide
theorem test_wf_takes_write_after_wait :
    hostProgramOk false [startItem .csum, .wait, wr Config.addrCmd 0x01] = true := by decide

/-! ## Decode: the codes of 30_encoding.md Table 30-1, bit by bit -/

theorem test_decode_nop : decode [0b00000000] = .ok (.nop, []) := by rfl
theorem test_decode_csum : decode [0b00000001] = .ok (.csum, []) := by rfl
theorem test_decode_build : decode [0b00000010] = .ok (.build, []) := by rfl
theorem test_decode_drain : decode [0b00000011] = .ok (.drain, []) := by rfl
theorem test_decode_send : decode [0b00000100] = .ok (.send, []) := by rfl
theorem test_decode_await_ack : decode [0b00000101] = .ok (.awaitAck, []) := by rfl
theorem test_decode_read_resp : decode [0b00000110] = .ok (.readResp, []) := by rfl
theorem test_decode_exec_cmd : decode [0b00000111] = .ok (.execCmd, []) := by rfl
theorem test_decode_exec_req : decode [0b00001000] = .ok (.execReq, []) := by rfl
theorem test_decode_reserved_low : decodeOp 0b00001001 = .error (.reservedCode 0x09) := by rfl
theorem test_decode_reserved_high : decodeOp 0b11111111 = .error (.reservedCode 0xFF) := by rfl
theorem test_decode_empty : decode [] = .error .noByte := by rfl
/-- A word of more than 8 bits is no operation, whether or not it fills its last byte (log 21). -/
theorem test_table_word_longer_than_a_code :
    decodeTableWord 9 0x001 = none ∧ decodeTableWord 12 0x101 = none ∧ decodeTableWord 15 0x0001 = none
      ∧ decodeTableWord 16 0x0001 = none := by decide

/-- The bus words that 30_encoding.md R93 writes out. -/
theorem test_bus_words :
    encodeBusWord (.write 0x002 0x01) = 0x80201 ∧ encodeBusWord (.read 0x001) = 0x00100 := by decide

/-! ## Single steps, results from 95_test_vectors.md and the rules' examples -/

/-- 40_dispatch.md R115, its example. -/
theorem test_nop_clears : tNext (exec .nop { tIdle 0x00 [] [] with err := .framing, done := true, failState := 0x06 })
    (fun t => statusByte t == 0x06 && t.failState == 0x00) = true := by decide

/-- 40_dispatch.md R116, its example. -/
theorem test_reserved_code : tNext (step (tIdle 0x00 [] [.host (wr 0x000 0x09)]))
    (fun t => statusByte t == 0x62 && t.op == 0x09) = true := by decide

/-- 41_checksum.md R131: CSUM starts from the seed; R137: L = 0 gives 0xAD in one step. -/
theorem test_csum_starts : tNext (exec .csum (tIdle 0x01 [] []))
    (fun t => t.acc == 0xAD && !t.seen && t.fsm == .csumRun && statusByte t == 0x01) = true := by decide
theorem test_csum_of_nothing : tNext (exec .csum (tCsum []))
    (fun t => t.csum == 0xAD && statusByte t == 0x06) = true := by decide

/-- 42_builder.md R151, R154: with C = 0x53 the checksum byte is 0x00, at offset 4 when N = 0. -/
theorem test_build_command_byte :
    tNext (exec .build { tRun 0x02 .buildRun [] [] with cmd := 0x53, idx := 2, acc := 0xAD })
      (fun t => memFind t.mem 0x402 == some 0x53 && t.acc == 0x00 && t.idx == 3) = true := by decide
theorem test_build_checksum_byte :
    tNext (exec .build { tRun 0x02 .buildRun [] [] with cmd := 0x01, idx := 4, acc := 0xAE })
      (fun t => memFind t.mem 0x404 == some 0xAE && t.csum == 0xAE && t.acc == 0xAE) = true := by decide

/-- 45_buffer_guard.md R220, R221, on the example of R222. -/
theorem test_drain_latches : tNext (exec .drain (tRun 0x03 .drainFlush [0x01, 0x02, 0x03] []))
    (fun t => t.k == 3 && t.fsm == .drainDiscard && t.rxq == [0x01, 0x02, 0x03]) = true := by decide
theorem test_drain_discards : tNext (exec .drain { tRun 0x03 .drainDiscard [0x01, 0x02, 0x03] [] with k := 2 })
    (fun t => t.k == 1 && t.rxq == [0x02, 0x03]) = true := by decide

/-- 42_builder.md R153: the last byte of a frame with N = 0 ends SEND; without TxReady nothing happens. -/
theorem test_send_last_byte :
    tNext (exec .send { tRun 0x04 .txSend [] [] with idx := 6, mem := [(0x406, 0x0F)] })
      (fun t => t.txLog == [0x0F] && statusByte t == 0x06) = true := by decide
theorem test_send_waits : tNext (exec .send { tRun 0x04 .txSend [] [] with idx := 6, txReady := false })
    (fun t => t.txLog == [] && t.fsm == .txSend && t.idx == 6) = true := by decide

/-- 44_handshake.md R202: `07 07 F3` fails at ACK1 with FAIL_BYTE 0x07, and the byte stays. -/
theorem test_ack_fails_at_ack1 : tNext (exec .awaitAck (tRun 0x05 .ack1 [0x07, 0xF3] []))
    (fun t => statusByte t == 0x22 && t.failState == 0x07 && t.failByte == 0x07 && t.rxq == [0x07, 0xF3]) = true := by
  decide
/-- 43_reader.md R171: the 1000th empty sample is the timeout. -/
theorem test_ack_times_out : tNext (exec .awaitAck { tRun 0x05 .ack0 [] [] with poll := 999 })
    (fun t => statusByte t == 0x12 && t.failState == 0x06 && t.failByte == 0x00) = true := by decide

/-- 43_reader.md R177, R184: a wrong command byte is UNEXPECTED_CMD; R179: a payload of one byte ends the phase. -/
theorem test_resp_wrong_command : tNext (exec .readResp { tRun 0x06 .rspCmdl [0x0D] [] with expCmd := 0x0C })
    (fun t => statusByte t == 0x32 && t.failState == 0x0B && t.failByte == 0x0D && t.rxq == [0x0D]) = true := by decide
theorem test_resp_last_payload_byte :
    tNext (exec .readResp { tRun 0x06 .rspPay [0x22, 0xEE] [] with rxLen := 2, idx := 1, acc := 0xCC })
      (fun t => memFind t.mem 0x201 == some 0x22 && t.csum == 0xEE && t.fsm == .rspCsum && t.rxq == [0xEE]) = true := by
  decide

/-- 40_dispatch.md Table 40-1: the drain of EXEC_CMD is followed by the builder; its ack ends it. -/
theorem test_exec_cmd_drain_then_build : tNext (exec .execCmd { tRun 0x07 .drainDiscard [] [] with acc := 0x55 })
    (fun t => t.fsm == .buildRun && t.acc == 0xAD && t.idx == 0) = true := by decide
theorem test_exec_cmd_ends_at_ack1 : tNext (exec .execCmd (tRun 0x07 .ack1 [0xF3, 0x55] []))
    (fun t => statusByte t == 0x06 && t.rxq == [0x55]) = true := by decide

/-- 40_dispatch.md R110: EXEC_REQ clears RX_LEN; Table 40-1: its ack is followed by the reader. -/
theorem test_exec_req_starts : tNext (exec .execReq { tIdle 0x08 [] [] with rxLen := 0x05, csum := 0x77 })
    (fun t => t.rxLen == 0x00 && t.csum == 0x77 && t.fsm == .drainFlush) = true := by decide
theorem test_exec_req_ack_then_response : tNext (exec .execReq { tRun 0x08 .ack1 [0xF3, 0x07] [] with acc := 0x55 })
    (fun t => t.fsm == .rspSof0 && t.acc == 0xAD && t.rxq == [0x07]) = true := by decide

/-- 30_encoding.md R94 with the model's choice of log 10: what arrives next falls between two reads of the loop. -/
theorem test_wait_lets_bytes_arrive : tNext (step (tRun 0x05 .ack0 [] [.host .wait, .arrive [0x07, 0xF3]]))
    (fun t => t.hostLog == [0x01] && t.agenda == [.arrive [0x07, 0xF3], .host .wait]) = true := by decide

/-- 41_checksum.md R137: `07 07 05` gives 0xB9, a span of 0x07 gives 0xB4; 95_test_vectors.md. -/
theorem test_checksum_values :
    checksum [0x07, 0x07, 0x05] = 0xB9 ∧ checksum [0x07, 0x07] = 0xB4 ∧ checksum [] = 0xAD := by decide

/-- The frame of the document's end-to-end example (42_builder.md R154). -/
theorem test_frame_example : frame 0x01 0x00 [] = [0x07, 0xF0, 0x01, 0x00, 0xAE, 0x07, 0x0F] := by decide

/-! ## Witnesses: for each statement with hypotheses, states and operands that meet them, at the ends of each range -/

/-- An idle block has the control invariant, whatever waits in RXQ and on the agenda. -/
theorem test_inv_idle (op : Byte) (rxq : List Byte) (ag : List Move) : Inv (tIdle op rxq ag) where
  busy_iff := ⟨fun h => (nomatch h), fun h => absurd rfl h⟩
  status := (by decide : statusOf false false false .none ∈ legalStatus)
  phase := fun h => nomatch h
  idx := trivial
  poll := fun h => nomatch h
  failState := Nat.zero_le _
  mem := rfl

/-- A block that has just entered CSUM_RUN with LEN = 0 has the control and the data invariant. -/
theorem test_inv_csum (ag : List Move) :
    Inv (tCsum ag) ∧ DataInv (tCsum ag) :=
  ⟨{ busy_iff := ⟨fun _ h => (nomatch h), fun _ => rfl⟩
     status := (by decide : statusOf true false false .none ∈ legalStatus)
     phase := fun _ => ⟨.csum, (by decide : decodeOp 0x01 = .ok .csum), List.mem_singleton.2 rfl⟩
     idx := Nat.zero_le _
     poll := fun _ => (by decide : (0 : PollCount).toNat < 1000)
     failState := Nat.zero_le _
     mem := rfl }, fun _ => rfl⟩

theorem witness_CodesDecodeToTheirOperations :
    Instr.wellFormed .nop = true ∧ Instr.wellFormed .execReq = true
      ∧ decodeOp 0x00 = .ok .nop ∧ decodeOp 0x08 = .ok .execReq
      ∧ 9 ≤ (0x09 : Byte).toNat ∧ 9 ≤ (0xFF : Byte).toNat := ⟨rfl, rfl, rfl, rfl, by decide, by decide⟩

theorem witness_BusWordsAndAccessesAgree :
    decodeBusWord 0x80201 = some (.write 0x002 0x01) ∧ decodeBusWord 0x00100 = some (.read 0x001)
      ∧ decodeBusWord 0xFFFFF = some (.write 0x7FF 0xFF) ∧ decodeBusWord 0x00001 = none := by decide

theorem witness_PseudoInstructionsExpandToWellFormedPrograms :
    HostMacro.wellFormed (.execReq 0x0B 0x0C (List.replicate 255 0xAA)) = true
      ∧ HostMacro.wellFormed (.load []) = true ∧ HostMacro.wellFormed .wait = true :=
  ⟨by rw [HostMacro.wellFormed, payloadOk, List.length_replicate]; decide, rfl, rfl⟩

theorem witness_ResetSetsEveryRegister :
    (tRun 0x03 .drainFlush [0x55] [.reset, .clock]).agenda = .reset :: [.clock] := rfl

theorem witness_ResetDrawsTheBufferBytes :
    ∃ t u, (tRun 0x03 .drainFlush [0x55] [.reset, .host (wr 0x100 0x01)]).agenda.head? = some .reset
      ∧ step (tRun 0x03 .drainFlush [0x55] [.reset, .host (wr 0x100 0x01)]) = .next t ∧ step t = .next u
      ∧ t.agenda.head? ≠ some .reset
      ∧ (∀ x v rest, t.agenda = .host (.access (.write x v)) :: rest → x.toNat ≠ 0x101) := by
  refine ⟨_, _, rfl, rfl, rfl, by decide, ?_⟩
  intro x v rest h
  have hx : (0x100 : HostAddr) = x := by
    have := (List.cons.inj h).1
    simp only [wr, Move.host.injEq, HostItem.access.injEq, HostAccess.write.injEq] at this
    exact this.1
  subst hx
  decide

theorem witness_StepRunsTheDecodedOperation :
    ((tIdle 0x00 [] [.host (wr 0x000 0x08)]).busy = false
        ∧ (tIdle 0x00 [] [.host (wr 0x000 0x08)]).agenda = .host (.access (.write 0x000 0x08)) :: []
        ∧ decodeOp 0x08 = .ok .execReq)
      ∧ ((tRun 0x01 .csumRun [] [.clock]).busy = true ∧ (tRun 0x01 .csumRun [] [.clock]).agenda = .clock :: []
        ∧ decodeOp (tRun 0x01 .csumRun [] [.clock]).op = .ok .csum)
      ∧ ((tRun 0x01 .csumRun [] []).busy = true ∧ (tRun 0x01 .csumRun [] []).agenda = []
        ∧ decodeOp (tRun 0x01 .csumRun [] []).op = .ok .csum) :=
  ⟨⟨rfl, rfl, rfl⟩, ⟨rfl, rfl, rfl⟩, ⟨rfl, rfl, rfl⟩⟩

theorem witness_IdleIsLeftOnlyByStart :
    (Inv (tIdle 0x00 [] []) ∧ (tIdle 0x00 [] []).fsm = .idle ∧ (tIdle 0x00 [] []).agenda = [])
      ∧ (Inv (tIdle 0x00 [] [.clock]) ∧ (tIdle 0x00 [] [.clock]).agenda = .clock :: [])
      ∧ (∃ t, Inv (tIdle 0x00 [] [.host (wr 0x000 0x01)])
        ∧ step (tIdle 0x00 [] [.host (wr 0x000 0x01)]) = .next t ∧ t.fsm ≠ .idle) :=
  ⟨⟨test_inv_idle _ _ _, rfl, rfl⟩, ⟨test_inv_idle _ _ _, rfl⟩, _, test_inv_idle _ _ _, rfl, by decide⟩

/-- Every address of each clause, at both ends of each range, is written by the first move of an idle block. -/
theorem witness_HostWriteWhileIdle :
    (∀ a ∈ [(0x000 : HostAddr), 0x002, 0x003, 0x004, 0x100, 0x1FE, 0x001, 0x005, 0x0FF, 0x1FF, 0x7FF], ∀ v,
        (tIdle 0x00 [] [.host (wr a v)]).busy = false
          ∧ (tIdle 0x00 [] [.host (wr a v)]).agenda = .host (.access (.write a v)) :: [])
      ∧ decodeOp 0x00 = .ok .nop ∧ decodeOp 0x08 = .ok .execReq
      ∧ 9 ≤ (0x09 : Byte).toNat ∧ 9 ≤ (0xFF : Byte).toNat
      ∧ 0x100 ≤ (0x100 : HostAddr).toNat ∧ (0x1FE : HostAddr).toNat ≤ 0x1FE :=
  ⟨fun _ _ _ => ⟨rfl, rfl⟩, rfl, rfl, by decide, by decide, by decide, by decide⟩

theorem witness_WritesAreIgnoredAndOperandsHeldWhileBusy :
    (∀ a ∈ [(0x000 : HostAddr), 0x1FE, 0x7FF], ∀ v,
        (tRun 0x03 .drainFlush [] [.host (wr a v)]).busy = true
          ∧ (tRun 0x03 .drainFlush [] [.host (wr a v)]).agenda = .host (.access (.write a v)) :: [])
      ∧ (∃ t, (tRun 0x03 .drainFlush [] []).busy = true
        ∧ (tRun 0x03 .drainFlush [] []).agenda.head? ≠ some .reset
        ∧ step (tRun 0x03 .drainFlush [] []) = .next t) :=
  ⟨fun _ _ _ => ⟨rfl, rfl⟩, _, rfl, by decide, rfl⟩

/-- Both ends of each range of 20_memory.md Table 20-1 are read by the first move. -/
theorem witness_HostReadReturnsTheMappedValue :
    (∀ a ∈ [(0x000 : HostAddr), 0x001, 0x002, 0x003, 0x004, 0x005, 0x006, 0x007, 0x008, 0x009, 0x0FF, 0x100, 0x1FE,
          0x1FF, 0x200, 0x2FE, 0x2FF, 0x3FF, 0x400, 0x505, 0x506, 0x7FF],
        (tIdle 0x00 [] [.host (rd a)]).agenda = .host (.access (.read a)) :: [])
      ∧ 0x009 ≤ (0x009 : HostAddr).toNat ∧ (0x0FF : HostAddr).toNat ≤ 0x0FF
      ∧ 0x100 ≤ (0x100 : HostAddr).toNat ∧ (0x1FE : HostAddr).toNat ≤ 0x1FE ∧ (0x1FF : HostAddr).toNat = 0x1FF
      ∧ 0x200 ≤ (0x200 : HostAddr).toNat ∧ (0x2FE : HostAddr).toNat ≤ 0x2FE
      ∧ 0x2FF ≤ (0x2FF : HostAddr).toNat ∧ (0x3FF : HostAddr).toNat ≤ 0x3FF
      ∧ 0x400 ≤ (0x400 : HostAddr).toNat ∧ (0x505 : HostAddr).toNat ≤ 0x505
      ∧ 0x506 ≤ (0x506 : HostAddr).toNat := by
  refine ⟨fun _ _ => rfl, ?_⟩
  decide

theorem witness_StatusHasItsFieldsAndNineValues :
    Inv (tIdle 0x00 [] []) ∧ Inv (tCsum []) :=
  ⟨test_inv_idle _ _ _, (test_inv_csum []).1⟩

theorem witness_NopClearsTheResults : (tIdle 0x00 [] []).busy = false := rfl

theorem witness_ReservedCodeFinishesWithIllegalOp :
    ∀ v ∈ [(0x09 : Byte), 0xFF], (tIdle 0x00 [] [.host (wr 0x000 v)]).busy = false ∧ 9 ≤ v.toNat
      ∧ (tIdle 0x00 [] [.host (wr 0x000 v)]).agenda = .host (.access (.write 0x000 v)) :: [] := by
  intro v hv
  refine ⟨rfl, ?_, rfl⟩
  revert v
  decide

theorem witness_StartEntersTheFirstPhase : (tIdle 0x01 [0x07] []).busy = false := rfl

theorem witness_AdvanceFollowsTheTable :
    (tRun 0x01 .csumRun [] []).fsm = .csumRun ∧ (tRun 0x08 .rspEof1 [] []).fsm = .rspEof1
      ∧ (tRun 0x04 .buildRun [] []).fsm = .buildRun ∧ (tRun 0x07 .txSend [] []).fsm = .txSend
      ∧ (tRun 0x07 .drainDiscard [] []).fsm = .drainDiscard ∧ (tRun 0x08 .ack1 [] []).fsm = .ack1 :=
  ⟨rfl, rfl, rfl, rfl, rfl, rfl⟩

theorem witness_EnterPerformsTheEntryActions :
    FsmState.csumRun ∈ [FsmState.csumRun, .buildRun] ∧ FsmState.rspPay ∈ [FsmState.txSend, .rspPay]
      ∧ FsmState.ack0 ∉ [FsmState.csumRun, .buildRun, .txSend, .rspPay, .rspSof0, .rspCsum] := by decide

theorem witness_FinishWritesItsRecord :
    ErrCode.none = .none ∧ ErrCode.illegalOp = .illegalOp ∧ ErrCode.timeout ≠ .none ∧ ErrCode.timeout ≠ .illegalOp
      ∧ (∀ st ∈ [FsmState.idle, .csumRun, .buildRun, .txSend, .drainFlush, .drainDiscard, .ack0, .ack1, .rspSof0,
          .rspSof1, .rspCmdh, .rspCmdl, .rspLen, .rspPay, .rspCsum, .rspEof0, .rspEof1],
        (tRun 0x08 st [] []).fsm = st) :=
  ⟨rfl, rfl, by decide, by decide, fun _ _ => rfl⟩

theorem witness_CsumStepAddsAllButRepeatedStopBytes :
    ((0x07 : Byte) = 0x07 ∧ { State.reset with seen := true }.seen = true)
      ∧ ¬((0x07 : Byte) = 0x07 ∧ State.reset.seen = true) ∧ ¬((0xFF : Byte) = 0x07 ∧ State.reset.seen = true) := by
  decide

theorem witness_ListedChangesKeepTheChecksum :
    ((([0x01, 0x02] : List Byte).filter fun b => b != 0x07).map BitVec.toNat).sum % 256
        = ((([0x02, 0x01] : List Byte).filter fun b => b != 0x07).map BitVec.toNat).sum % 256
      ∧ ((0x07 : Byte) ∈ ([0x01, 0x02] : List Byte) ↔ (0x07 : Byte) ∈ ([0x02, 0x01] : List Byte))
      ∧ ((0x01 : Byte) ≠ 0x07 ∧ (0x02 : Byte) ≠ 0x07 ∧ (0x01 : Byte) + 0x02 = 0x02 + 0x01)
      ∧ (0x07 : Byte) ∈ ([] : List Byte) ++ [0x07]
      ∧ (0x00 : Byte) ≠ 0x07 := by decide

theorem witness_CsumRunAddsOneByteOrFinishes :
    (tRun 0x01 .csumRun [] []).busy = true ∧ (tRun 0x01 .csumRun [] []).fsm = .csumRun := ⟨rfl, rfl⟩

/-- Every offset at which the byte's case changes, for N = 2 and N = 0. -/
theorem witness_BuildRunWritesOneFrameByte :
    (∀ i ∈ [Instr.build, .send, .execCmd, .execReq], FsmState.buildRun ∈ phasesOf i)
      ∧ (∀ o ∈ [(0 : FrameIdx), 1, 2, 3, 4, 5, 6, 7, 8],
        { tRun 0x02 .buildRun [] [] with len := 2, idx := o }.busy = true
          ∧ { tRun 0x02 .buildRun [] [] with len := 2, idx := o }.fsm = .buildRun
          ∧ { tRun 0x02 .buildRun [] [] with len := 2, idx := o }.idx.toNat
            ≤ { tRun 0x02 .buildRun [] [] with len := 2, idx := o }.len.toNat + 6)
      ∧ { tRun 0x02 .buildRun [] [] with idx := 4 }.idx.toNat = 4 + { tRun 0x02 .buildRun [] [] with idx := 4 }.len.toNat := by
  decide

theorem witness_TxSendPushesOneByteWhenReady :
    (∀ i ∈ [Instr.send, .execCmd, .execReq], FsmState.txSend ∈ phasesOf i)
      ∧ (∀ o ∈ [(0 : FrameIdx), 5, 6], ∀ r ∈ [true, false],
        { tRun 0x04 .txSend [] [] with idx := o, txReady := r }.busy = true
          ∧ { tRun 0x04 .txSend [] [] with idx := o, txReady := r }.fsm = .txSend
          ∧ { tRun 0x04 .txSend [] [] with idx := o, txReady := r }.txReady = r
          ∧ { tRun 0x04 .txSend [] [] with idx := o, txReady := r }.idx.toNat
            ≤ { tRun 0x04 .txSend [] [] with idx := o, txReady := r }.len.toNat + 6) := by decide

theorem witness_DrainStatesFlushThenDiscard :
    (∀ i ∈ [Instr.drain, .execCmd, .execReq], FsmState.drainFlush ∈ phasesOf i)
      ∧ (∀ e ∈ [true, false], { tRun 0x03 .drainFlush [] [] with txEmpty := e }.busy = true
        ∧ { tRun 0x03 .drainFlush [] [] with txEmpty := e }.fsm = .drainFlush
        ∧ { tRun 0x03 .drainFlush [] [] with txEmpty := e }.txEmpty = e)
      ∧ (tRun 0x03 .drainDiscard [] []).fsm = .drainDiscard ∧ (tRun 0x03 .drainDiscard [] []).k = 0
      ∧ { tRun 0x03 .drainDiscard [0x55] [] with k := 1 }.k ≠ 0
      ∧ { tRun 0x03 .drainDiscard [0x55] [] with k := 1 }.rxq = 0x55 :: [] := by decide

theorem witness_DiscardOnAnEmptyQueuePopsNothing :
    { tRun 0x03 .drainDiscard [] [] with k := 1 }.busy = true
      ∧ { tRun 0x03 .drainDiscard [] [] with k := 1 }.fsm = .drainDiscard
      ∧ FsmState.drainDiscard ∈ phasesOf .drain ∧ { tRun 0x03 .drainDiscard [] [] with k := 1 }.k ≠ 0
      ∧ { tRun 0x03 .drainDiscard [] [] with k := 1 }.rxq = [] := by decide

theorem witness_AckStatesVerifyTheirBytes :
    (∀ i ∈ [Instr.awaitAck, .execCmd, .execReq], FsmState.ack0 ∈ phasesOf i)
      ∧ (∀ st ∈ [FsmState.ack0, .ack1], ∀ q ∈ [([] : List Byte), [0x07], [0xF3]],
        (tRun 0x05 st q []).busy = true ∧ (tRun 0x05 st q []).fsm = st ∧ (tRun 0x05 st q []).rxq = q)
      ∧ Instr.awaitAck ≠ .execReq := by decide

theorem witness_MarkerStatesVerifyTheirBytes :
    (∀ i ∈ [Instr.readResp, .execReq], FsmState.rspSof0 ∈ phasesOf i)
      ∧ (∀ st ∈ [FsmState.rspSof0, .rspSof1, .rspEof0, .rspEof1],
        (tRun 0x06 st [0x07] []).busy = true ∧ (tRun 0x06 st [0x07] []).fsm = st) := by decide

theorem witness_CommandAndChecksumStatesVerifyTheirBytes :
    (∀ i ∈ [Instr.readResp, .execReq], FsmState.rspSof0 ∈ phasesOf i)
      ∧ (∀ st ∈ [FsmState.rspCmdh, .rspCmdl, .rspCsum],
        (tRun 0x06 st [0x00] []).busy = true ∧ (tRun 0x06 st [0x00] []).fsm = st) := by decide

theorem witness_LengthStateTakesAnyByte :
    (∀ i ∈ [Instr.readResp, .execReq], FsmState.rspLen ∈ phasesOf i)
      ∧ (∀ q ∈ [([] : List Byte), [0x00], [0x01], [0xFF]],
        (tRun 0x06 .rspLen q []).busy = true ∧ (tRun 0x06 .rspLen q []).fsm = .rspLen
          ∧ (tRun 0x06 .rspLen q []).rxq = q) := by decide

theorem witness_PayloadStateStoresOneByte :
    (∀ i ∈ [Instr.readResp, .execReq], FsmState.rspPay ∈ phasesOf i)
      ∧ (∀ q ∈ [([] : List Byte), [0x07]], ∀ o ∈ [(0 : FrameIdx), 254],
        { tRun 0x06 .rspPay q [] with rxLen := 0xFF, idx := o }.busy = true
          ∧ { tRun 0x06 .rspPay q [] with rxLen := 0xFF, idx := o }.fsm = .rspPay
          ∧ { tRun 0x06 .rspPay q [] with rxLen := 0xFF, idx := o }.rxq = q
          ∧ { tRun 0x06 .rspPay q [] with rxLen := 0xFF, idx := o }.idx.toNat
            < { tRun 0x06 .rspPay q [] with rxLen := 0xFF, idx := o }.rxLen.toNat) := by decide

theorem witness_EveryAwaitHasItsBudget :
    ∀ st ∈ [FsmState.rspSof0, .rspPay, .rspEof1],
      (tRun 0x06 st [] []).busy = true ∧ decodeOp (tRun 0x06 st [] []).op = .ok .readResp
        ∧ (tRun 0x06 st [] []).fsm ∈ phasesOf .readResp
        ∧ (tRun 0x06 st [] []).fsm ∈ [FsmState.ack0, .ack1, .rspSof0, .rspSof1, .rspCmdh, .rspCmdl, .rspLen, .rspPay,
          .rspCsum, .rspEof0, .rspEof1]
        ∧ (tRun 0x06 st [] []).rxq = [] ∧ (tRun 0x06 st [] []).poll = 0 ∧ (tRun 0x06 st [] []).agenda = [] := by
  intro st _
  refine ⟨rfl, (by decide : decodeOp 0x06 = .ok .readResp), ?_, ?_, rfl, rfl, rfl⟩ <;> · revert st; decide

theorem witness_TheTwoUnboundedWaits :
    (∀ ag ∈ [([] : List Move), List.replicate 2 .clock ++ [.reset]],
        { tRun 0x04 .txSend [] ag with txReady := false }.busy = true
          ∧ { tRun 0x04 .txSend [] ag with txReady := false }.fsm ∈ phasesOf .send
          ∧ { tRun 0x04 .txSend [] ag with txReady := false }.fsm = .txSend
          ∧ { tRun 0x04 .txSend [] ag with txReady := false }.txReady = false
          ∧ { tRun 0x04 .txSend [] ag with txReady := false }.agenda = ag
          ∧ { tRun 0x03 .drainFlush [] ag with txEmpty := false }.busy = true
          ∧ { tRun 0x03 .drainFlush [] ag with txEmpty := false }.fsm ∈ phasesOf .drain
          ∧ { tRun 0x03 .drainFlush [] ag with txEmpty := false }.fsm = .drainFlush
          ∧ { tRun 0x03 .drainFlush [] ag with txEmpty := false }.txEmpty = false)
      ∧ decodeOp 0x04 = .ok .send ∧ decodeOp 0x03 = .ok .drain :=
  ⟨fun _ _ => ⟨rfl, (by decide : FsmState.txSend ∈ phasesOf .send), rfl, rfl, rfl, rfl,
    (by decide : FsmState.drainFlush ∈ phasesOf .drain), rfl, rfl⟩, rfl, rfl⟩

/-- An idle block with each operation's code in OP, both ends of LEN, and an idle transport. -/
theorem witness_whole_operations :
    ∀ op ∈ [(0x01 : Byte), 0x02, 0x03, 0x04, 0x05, 0x06, 0x07], ∀ n ∈ [(0x00 : Byte), 0xFF],
      { tIdle op [] [] with len := n }.busy = false ∧ { tIdle op [] [] with len := n }.op = op
        ∧ { tIdle op [] [] with len := n }.agenda = [] ∧ { tIdle op [] [] with len := n }.txReady = true
        ∧ { tIdle op [] [] with len := n }.txEmpty = true := fun _ _ _ _ => ⟨rfl, rfl, rfl, rfl, rfl⟩

theorem witness_CsumOperationLeavesTheChecksum :
    (tIdle 0x01 [] []).busy = false ∧ (tIdle 0x01 [] []).op = 0x01 ∧ (tIdle 0x01 [] []).agenda = [] := ⟨rfl, rfl, rfl⟩

theorem witness_BuildOperationLeavesTheFrame :
    (tIdle 0x02 [] []).busy = false ∧ (tIdle 0x02 [] []).op = 0x02 ∧ (tIdle 0x02 [] []).agenda = [] := ⟨rfl, rfl, rfl⟩

theorem witness_SendOperationTransmitsTheFrame :
    (tIdle 0x04 [] []).busy = false ∧ (tIdle 0x04 [] []).op = 0x04 ∧ (tIdle 0x04 [] []).agenda = []
      ∧ (tIdle 0x04 [] []).txReady = true := ⟨rfl, rfl, rfl, rfl⟩

theorem witness_DrainOperationDiscardsWhatWaits :
    (tIdle 0x03 [0x01, 0x02, 0x03] []).busy = false ∧ (tIdle 0x03 [0x01, 0x02, 0x03] []).op = 0x03
      ∧ (tIdle 0x03 [0x01, 0x02, 0x03] []).agenda = [] ∧ (tIdle 0x03 [0x01, 0x02, 0x03] []).txEmpty = true :=
  ⟨rfl, rfl, rfl, rfl⟩

theorem witness_DrainKeepsLateBytes :
    ∀ j ∈ [0, 2], (tIdle 0x03 [0x01, 0x02] (List.replicate (1 + j) .clock ++ [.arrive [0x55]])).busy = false
      ∧ (tIdle 0x03 [0x01, 0x02] (List.replicate (1 + j) .clock ++ [.arrive [0x55]])).op = 0x03
      ∧ (tIdle 0x03 [0x01, 0x02] (List.replicate (1 + j) .clock ++ [.arrive [0x55]])).txEmpty = true
      ∧ j ≤ (tIdle 0x03 [0x01, 0x02] (List.replicate (1 + j) .clock ++ [.arrive [0x55]])).rxq.length := by decide

theorem witness_AwaitAckOutcomes :
    (∀ q ∈ [([] : List Byte), [0x07], [0x07, 0xF3], [0x55], [0x07, 0x07]],
        (tIdle 0x05 q []).busy = false ∧ (tIdle 0x05 q []).op = 0x05 ∧ (tIdle 0x05 q []).agenda = []
          ∧ (tIdle 0x05 q []).rxq = q)
      ∧ (0x55 : Byte) ≠ 0x07 ∧ (0x07 : Byte) ≠ 0xF3 := by decide

/-- Frames of both ends of the length: n = 0, with and without bytes after it, and n = 255. -/
theorem witness_ReadRespAcceptsAResponseFrame :
    (∀ tail ∈ [([] : List Byte), [0x55]],
        (tIdle 0x06 (responseFrame 0x00 0x00 [] ++ tail) []).busy = false
          ∧ (tIdle 0x06 (responseFrame 0x00 0x00 [] ++ tail) []).op = 0x06
          ∧ (tIdle 0x06 (responseFrame 0x00 0x00 [] ++ tail) []).agenda = []
          ∧ ([] : List Byte).length = (0x00 : Byte).toNat
          ∧ (tIdle 0x06 (responseFrame 0x00 0x00 [] ++ tail) []).rxq
            = responseFrame (tIdle 0x06 (responseFrame 0x00 0x00 [] ++ tail) []).expCmd 0x00 [] ++ tail)
      ∧ (List.replicate 255 (0x07 : Byte)).length = (0xFF : Byte).toNat :=
  ⟨fun _ _ => ⟨rfl, rfl, rfl, rfl, rfl⟩, List.length_replicate⟩

/-- A response with n = 0: `07 F0 00 00 00 AD 07 0F` (43_reader.md R185), accepted in 8 steps. -/
theorem witness_ReadRespSucceedsExactlyOnResponseFrames :
    ∃ t u, (tIdle 0x06 [0x07, 0xF0, 0x00, 0x00, 0x00, 0xAD, 0x07, 0x0F] []).busy = false
      ∧ exec .readResp (tIdle 0x06 [0x07, 0xF0, 0x00, 0x00, 0x00, 0xAD, 0x07, 0x0F] []) = .next t
      ∧ run 8 t = .next u ∧ u.busy = false ∧ u.ok = true := ⟨_, _, rfl, rfl, rfl, rfl, rfl⟩

/-- READ_RESP right after its Start, with RXQ empty. -/
def tWaiting : State := { tRun 0x06 .rspSof0 [] [] with acc := 0xAD }

/-- Each of the first 999 empty samples only counts (43_reader.md R171). -/
theorem test_one_empty_sample (n : Nat) (h : n < 999) :
    step { tWaiting with poll := BitVec.ofNat 10 n } = .next { tWaiting with poll := BitVec.ofNat 10 (n + 1) } := by
  have hp : ∀ p : PollCount, p.toNat + 1 ≠ 1000 →
      step { tWaiting with poll := p } = .next { tWaiting with poll := p + 1 } := by
    intro p hp
    have hd : decodeOp 0x06 = .ok .readResp := rfl
    have hm : FsmState.rspSof0 ∈ phasesOf .readResp := by decide
    rw [step_nil rfl, clockTick_rule (i := .readResp) rfl hd hm, stateRule]
    change rspSof0Step { tWaiting with poll := p } = _
    rw [rspSof0Step, awaitVerify_nil rfl, emptySample_eq, if_neg hp]
  rw [hp _ (by rw [BitVec.toNat_ofNat]; omega), BitVec.ofNat_add]
  rfl

/-- A failure at the first byte, one at the checksum byte of an empty response, and a timeout. -/
theorem witness_ReadRespFailsOnABeginningOfAFrame :
    (∃ t u, (tIdle 0x06 [0x06] []).busy = false ∧ exec .readResp (tIdle 0x06 [0x06] []) = .next t
        ∧ run 1 t = .next u ∧ u.busy = false ∧ u.ok = false ∧ u.err = .framing)
      ∧ (∃ t u, exec .readResp (tIdle 0x06 [0x07, 0xF0, 0x00, 0x00, 0x00, 0xEE] []) = .next t
        ∧ run 6 t = .next u ∧ u.busy = false ∧ u.ok = false ∧ u.err = .checksum)
      ∧ (∃ t u, exec .readResp (tIdle 0x06 [] []) = .next t
        ∧ run 1000 t = .next u ∧ u.busy = false ∧ u.ok = false ∧ u.err = .timeout) := by
  refine ⟨⟨_, _, rfl, rfl, rfl, rfl, rfl, rfl⟩, ⟨_, _, rfl, rfl, rfl, rfl, rfl⟩, tWaiting, _, rfl,
    run_snoc (run_empty_samples (s := tWaiting) test_one_empty_sample 999 (Nat.le_refl _)) rfl, rfl, rfl, rfl⟩

theorem witness_BuiltFramesRoundTripThroughTheReader :
    (tIdle 0x06 ((frame 0x00 0x00 []).take 2 ++ 0x00 :: (frame 0x00 0x00 []).drop 2) []).busy = false
      ∧ (tIdle 0x06 ((frame 0x00 0x00 []).take 2 ++ 0x00 :: (frame 0x00 0x00 []).drop 2) []).expCmd = 0x00
      ∧ ([] : List Byte).length = (0x00 : Byte).toNat
      ∧ (List.replicate 255 (0x07 : Byte)).length = (0xFF : Byte).toNat
      ∧ { tIdle 0x06 (frame 0x01 0x00 []) [] with expCmd := 0x01 }.expCmd = 0x01
      ∧ { tIdle 0x06 (frame 0x01 0x00 []) [] with expCmd := 0x01 }.rxq = frame 0x01 0x00 []
      ∧ (0x01 : Byte) ≠ 0x00 := ⟨rfl, rfl, rfl, List.length_replicate, rfl, rfl, by decide⟩

theorem witness_ExecCmdRunsACommandTransaction :
    ∃ s : State, s.busy = false ∧ s.op = 0x07 ∧ s.txReady = true ∧ s.txEmpty = true
      ∧ s.agenda = List.replicate (s.rxq.length + 2 + 2 * (s.len.toNat + 7)) .clock
          ++ [.arrive (0x07 :: 0xF3 :: [0x55])] :=
  ⟨tIdle 0x07 [0x55, 0x07] (List.replicate 18 .clock ++ [.arrive [0x07, 0xF3, 0x55]]), rfl, rfl, rfl, rfl, rfl⟩

theorem witness_ExecCmdTimesOutWithoutAnAck :
    (tIdle 0x07 [0x55] []).busy = false ∧ (tIdle 0x07 [0x55] []).op = 0x07 ∧ (tIdle 0x07 [0x55] []).txReady = true
      ∧ (tIdle 0x07 [0x55] []).txEmpty = true ∧ (tIdle 0x07 [0x55] []).agenda = [] := ⟨rfl, rfl, rfl, rfl, rfl⟩

theorem witness_ExecReqRunsARequestTransaction :
    ∃ s : State, s.busy = false ∧ s.op = 0x08 ∧ s.txReady = true ∧ s.txEmpty = true
      ∧ ([0x11, 0x22] : List Byte).length = (0x02 : Byte).toNat
      ∧ s.agenda = List.replicate (s.rxq.length + 2 + 2 * (s.len.toNat + 7)) .clock
          ++ [.arrive (0x07 :: 0xF3 :: responseFrame s.expCmd 0x02 [0x11, 0x22] ++ [])] :=
  ⟨tIdle 0x08 [] (List.replicate 16 .clock ++ [.arrive (0x07 :: 0xF3 :: responseFrame 0x00 0x02 [0x11, 0x22] ++ [])]),
    rfl, rfl, rfl, rfl, rfl, rfl⟩

theorem witness_EveryOperationEnds :
    Inv (tCsum []) ∧ (tCsum []).agenda = []
      ∧ (tCsum []).txReady = true
      ∧ (tCsum []).txEmpty = true := ⟨(test_inv_csum []).1, rfl, rfl, rfl⟩

theorem witness_CsumHostProgramLeavesTheChecksum :
    (∀ p ∈ [([] : List Byte), [0x07, 0x07, 0x05]], (tIdle 0x00 [] (hostMoves (expand (.csum p)))).busy = false
        ∧ p.length ≤ 255 ∧ (tIdle 0x00 [] (hostMoves (expand (.csum p)))).agenda = hostMoves (expand (.csum p)))
      ∧ (List.replicate 255 (0xFF : Byte)).length ≤ 255 := by
  refine ⟨fun p hp => ⟨rfl, ?_, rfl⟩, Nat.le_of_eq List.length_replicate⟩
  revert p
  decide

theorem witness_EveryStepKeepsTheControlInvariant :
    ∃ t, Inv (tCsum [])
      ∧ step (tCsum []) = .next t := ⟨_, (test_inv_csum []).1, rfl⟩

theorem witness_NoStepStopsTheMachine : Inv (tCsum [.reset]) :=
  (test_inv_csum [.reset]).1

theorem witness_EveryStepKeepsTheDataInvariant :
    ∃ t, Inv (tCsum []) ∧ DataInv (tCsum [])
      ∧ step (tCsum []) = .next t :=
  ⟨_, (test_inv_csum []).1, (test_inv_csum []).2, rfl⟩

theorem witness_DrainNeverRunsDry :
    ∃ t, drainCovered { tRun 0x03 .drainDiscard [0x55] [] with k := 1 }
      ∧ keepsDuty { tRun 0x03 .drainDiscard [0x55] [] with k := 1 }
      ∧ step { tRun 0x03 .drainDiscard [0x55] [] with k := 1 } = .next t :=
  ⟨_, fun _ => Nat.le_refl _, (fun h => nomatch h), rfl⟩

theorem witness_OneTransportTransferPerBlockStep :
    (∃ t, { tRun 0x03 .drainDiscard [0x55] [] with k := 1 }.agenda = []
        ∧ step { tRun 0x03 .drainDiscard [0x55] [] with k := 1 } = .next t)
      ∧ (∃ t, { tRun 0x04 .txSend [] [.clock] with idx := 6 }.agenda = .clock :: []
        ∧ step { tRun 0x04 .txSend [] [.clock] with idx := 6 } = .next t) := ⟨⟨_, rfl, rfl⟩, _, rfl, rfl⟩

/-- The block with a byte in the first place of each buffer, which the next move changes. -/
def tFirstBytes (s : State) : State := { s with mem := [(0x100, 0x02), (0x200, 0x02), (0x400, 0x02)] }

/-- A host write changes TXBUF[0], a payload byte RXBUF[0], the builder FRAMEBUF[0]. -/
theorem witness_BufferBytesChangeOnlyByTheirWriters :
    (∃ t, (tFirstBytes (tIdle 0x00 [] [.host (wr 0x100 0x01)])).agenda.head? ≠ some .reset
        ∧ step (tFirstBytes (tIdle 0x00 [] [.host (wr 0x100 0x01)])) = .next t
        ∧ byteAt t 0x100 ≠ byteAt (tFirstBytes (tIdle 0x00 [] [.host (wr 0x100 0x01)])) 0x100)
      ∧ (∃ t, (tFirstBytes { tRun 0x06 .rspPay [0x55] [] with rxLen := 2 }).agenda.head? ≠ some .reset
        ∧ step (tFirstBytes { tRun 0x06 .rspPay [0x55] [] with rxLen := 2 }) = .next t
        ∧ byteAt t 0x200 ≠ byteAt (tFirstBytes { tRun 0x06 .rspPay [0x55] [] with rxLen := 2 }) 0x200)
      ∧ (∃ t, (tFirstBytes (tRun 0x02 .buildRun [] [.clock])).agenda.head? ≠ some .reset
        ∧ step (tFirstBytes (tRun 0x02 .buildRun [] [.clock])) = .next t
        ∧ byteAt t 0x400 ≠ byteAt (tFirstBytes (tRun 0x02 .buildRun [] [.clock])) 0x400) :=
  ⟨⟨_, by decide, rfl, by decide⟩, ⟨_, by decide, rfl, by decide⟩, _, by decide, rfl, by decide⟩

/-- CSUM changes at the end of CSUM_RUN, at offset 4 + N of BUILD_RUN, and at the entry of RSP_CSUM. -/
theorem witness_CsumChangesOnlyAtItsThreePoints :
    (∃ t, (tCsum []).agenda.head? ≠ some .reset ∧ step (tCsum []) = .next t ∧ t.csum ≠ (tCsum []).csum)
      ∧ (∃ t, { tRun 0x02 .buildRun [] [.clock] with idx := 4, acc := 0xAE }.agenda.head? ≠ some .reset
        ∧ step { tRun 0x02 .buildRun [] [.clock] with idx := 4, acc := 0xAE } = .next t
        ∧ t.csum ≠ { tRun 0x02 .buildRun [] [.clock] with idx := 4, acc := 0xAE }.csum)
      ∧ (∃ t, { tRun 0x06 .rspLen [0x00] [] with acc := 0xAD }.agenda.head? ≠ some .reset
        ∧ step { tRun 0x06 .rspLen [0x00] [] with acc := 0xAD } = .next t
        ∧ t.csum ≠ { tRun 0x06 .rspLen [0x00] [] with acc := 0xAD }.csum) :=
  ⟨⟨_, by decide, rfl, by decide⟩, ⟨_, by decide, rfl, by decide⟩, _, by decide, rfl, by decide⟩

/-- STATUS changes by a Start and by a Finish; `seen` by a CsumStep, by the entry of RSP_SOF0 and by a Start. -/
theorem witness_FlagsChangeOnlyByStartFinishAndReset :
    (∃ t, (tIdle 0x00 [] [.host (wr 0x000 0x01)]).agenda.head? ≠ some .reset
        ∧ step (tIdle 0x00 [] [.host (wr 0x000 0x01)]) = .next t
        ∧ statusByte t ≠ statusByte (tIdle 0x00 [] [.host (wr 0x000 0x01)]))
      ∧ (∃ t, step (tCsum [.clock]) = .next t ∧ statusByte t ≠ statusByte (tCsum [.clock]))
      ∧ (∃ t, step { tRun 0x06 .rspLen [0x07] [] with acc := 0xAD } = .next t
        ∧ t.seen ≠ { tRun 0x06 .rspLen [0x07] [] with acc := 0xAD }.seen)
      ∧ (∃ t, step { tRun 0x08 .ack1 [0xF3] [] with seen := true } = .next t
        ∧ t.seen ≠ { tRun 0x08 .ack1 [0xF3] [] with seen := true }.seen)
      ∧ (∃ t, step { tIdle 0x00 [] [.host (wr 0x000 0x01)] with seen := true } = .next t
        ∧ t.seen ≠ { tIdle 0x00 [] [.host (wr 0x000 0x01)] with seen := true }.seen) :=
  ⟨⟨_, by decide, rfl, by decide⟩, ⟨_, rfl, by decide⟩, ⟨_, rfl, by decide⟩, ⟨_, rfl, by decide⟩, _, rfl, by decide⟩

theorem witness_AFiniteAgendaIsUsedUp :
    ∃ t, Inv (tIdle 0x00 [] [.arrive [0x07], .clock])
      ∧ Move.host .wait ∉ (tIdle 0x00 [] [.arrive [0x07], .clock]).agenda
      ∧ run (tIdle 0x00 [] [.arrive [0x07], .clock]).agenda.length (tIdle 0x00 [] [.arrive [0x07], .clock]) = .next t :=
  ⟨_, test_inv_idle _ _ _, by decide, rfl⟩

theorem witness_TransportMovesTouchTheTransportAlone :
    (tIdle 0x00 [] [.arrive [0x07]]).agenda = .arrive [0x07] :: []
      ∧ (tIdle 0x00 [] [.setTxReady false]).agenda = .setTxReady false :: []
      ∧ (tIdle 0x00 [] [.setTxEmpty false]).agenda = .setTxEmpty false :: []
      ∧ (tIdle 0x00 [] [.steal]).agenda = .steal :: [] ∧ (tIdle 0x00 [0x07] [.steal]).agenda = .steal :: [] :=
  ⟨rfl, rfl, rfl, rfl, rfl⟩

theorem witness_WaitPassReadsStatusOnce :
    ((tIdle 0x00 [] [.host .wait]).agenda = .host .wait :: [] ∧ (tIdle 0x00 [] [.host .wait]).busy = false)
      ∧ ((tRun 0x05 .ack0 [] [.host .wait]).agenda = .host .wait :: [] ∧ (tRun 0x05 .ack0 [] [.host .wait]).busy = true)
      ∧ ((tRun 0x05 .ack0 [] [.host .wait, .host (rd 0x001)]).agenda = .host .wait :: [.host (rd 0x001)]
        ∧ ([.host (rd 0x001)] : List Move).head? = some (.host (rd 0x001)))
      ∧ ((tRun 0x05 .ack0 [] [.host .wait, .arrive [0x07]]).agenda = .host .wait :: [.arrive [0x07]]
        ∧ ∀ x, Move.arrive [0x07] ≠ .host x) :=
  ⟨⟨rfl, rfl⟩, ⟨rfl, rfl⟩, ⟨rfl, rfl⟩, rfl, fun _ h => nomatch h⟩
end

section
/-!
PROOFS. The control invariant along a run, and what becomes of the agenda (00_scope.md R12).

A state that meets `Inv` has a step that answers, and the answer meets `Inv` again: both are proved together, by the
state rule (`stateRule_answers_inv`), by the move (`performMove_answers_inv`) and for runs (`run_answers_inv`).
A step whose move is not the `wait` loop takes one move off the agenda, with or without `Inv` (`step_agenda`).
-/
namespace Sys2Proof.Machine

/-! ## The phases of an operation (30_encoding.md Table 30-1; 40_dispatch.md Table 40-1) -/

/-- The transitions that a state rule makes by itself, without Advance. -/
def ownTransitions : List (FsmState × FsmState) :=
  [(.drainFlush, .drainDiscard), (.ack0, .ack1), (.rspSof0, .rspSof1), (.rspSof1, .rspCmdh), (.rspCmdh, .rspCmdl),
    (.rspCmdl, .rspLen), (.rspLen, .rspPay), (.rspLen, .rspCsum), (.rspPay, .rspCsum), (.rspCsum, .rspEof0),
    (.rspEof0, .rspEof1)]

/-- The states whose rule ends with Advance. -/
def advancingStates : List FsmState := [.csumRun, .buildRun, .txSend, .drainDiscard, .ack1, .rspEof1]

/-- A state rule's own transition stays inside the phases of the operation. -/
theorem ownTransition_mem_phasesOf {i : Instr} {st st' : FsmState} (h : (st, st') ∈ ownTransitions)
    (hp : st ∈ phasesOf i) : st' ∈ phasesOf i := by
  have stays : ∀ p ∈ ownTransitions, p.1 ∈ phasesOf i → p.2 ∈ phasesOf i := by cases i <;> decide
  exact stays _ h hp

/-- Table 40-1 has a successor for every phase that can end: IDLE, or another phase of the operation, never RSP_PAY. -/
theorem successor_of_advancing {i : Instr} {st : FsmState} (h : st ∈ advancingStates) (hp : st ∈ phasesOf i) :
    successor st i = some .idle ∨ ∃ st' ∈ phasesOf i, st' ≠ .rspPay ∧ successor st i = some st' := by
  have listed : ∀ x ∈ advancingStates, x ∈ phasesOf i →
      successor x i = some .idle ∨ ∃ y ∈ phasesOf i, y ≠ .rspPay ∧ successor x i = some y := by
    cases i <;> decide
  exact listed st h hp

theorem ne_idle_of_mem_phasesOf {i : Instr} {st : FsmState} (hp : st ∈ phasesOf i) : st ≠ .idle := by
  have idle_not : .idle ∉ phasesOf i := by cases i <;> decide
  rintro rfl
  exact idle_not hp

theorem head_phasesOf_ne_rspPay {i : Instr} {st : FsmState} {rest : List FsmState} (h : phasesOf i = st :: rest) :
    st ≠ .rspPay := by
  have head_not : (phasesOf i).head? ≠ some .rspPay := by cases i <;> decide
  rintro rfl
  exact head_not (by rw [h, List.head?_cons])

/-! ## The control invariant, by what it needs of an idle and of a running block -/

/-- What `Inv` asks of a block that runs the operation `i`, apart from `state`, `idx` and `poll`. -/
structure RunsOp (i : Instr) (s : State) : Prop where
  busy : s.busy = true
  status : statusByte s ∈ legalStatus
  decodes : decodeOp s.op = .ok i
  failState : s.failState.toNat ≤ 0x10
  mem : Memory.wf s.mem = true

namespace RunsOp

variable {i : Instr} {s : State}

theorem ofInv (hi : Inv s) (hb : s.busy = true) (hd : decodeOp s.op = .ok i) : RunsOp i s :=
  ⟨hb, hi.status, hd, hi.failState, hi.mem⟩

/-- The registers that `RunsOp` does not speak of may take any value. -/
theorem setRegs (hr : RunsOp i s) (rxLen csum acc : Byte) (seen : Bool) (idx : FrameIdx) (poll : PollCount) (k : Nat)
    (rxq txLog : List Byte) :
    RunsOp i { s with rxLen, csum, acc, seen, idx, poll, k, rxq, txLog } :=
  ⟨hr.busy, hr.status, hr.decodes, hr.failState, hr.mem⟩

theorem storeBuf (hr : RunsOp i s) {b : Buffer} {j : Nat} (hj : j < bufSize b) (v : Byte) :
    RunsOp i (storeAt (bufBase b + j) v s) :=
  ⟨hr.busy, hr.status, hr.decodes, hr.failState, memWrite_keeps_wf (isBufferAddr_bufBase b j hj) hr.mem⟩

/-- A running block is well controlled in any phase of its operation, with `idx` and `poll` in range. -/
theorem inv (hr : RunsOp i s) (hp : s.fsm ∈ phasesOf i) (hx : idxInRange s) (hpoll : s.poll.toNat < 1000) :
    Inv s where
  busy_iff := iff_of_true hr.busy (ne_idle_of_mem_phasesOf hp)
  status := hr.status
  phase _ := ⟨i, hr.decodes, hp⟩
  idx := hx
  poll _ := hpoll
  failState := hr.failState
  mem := hr.mem

end RunsOp

variable {i : Instr} {s : State}

/-- An idle block is well controlled whatever its other registers hold. -/
theorem Inv.of_idle (hb : s.busy = false) (hf : s.fsm = .idle) (hs : statusByte s ∈ legalStatus)
    (hfs : s.failState.toNat ≤ 0x10) (hm : Memory.wf s.mem = true) : Inv s where
  busy_iff := by simp [hb, hf]
  status := hs
  phase h := by simp [hb] at h
  idx := by simp [idxInRange, hf]
  poll h := by simp [hb] at h
  failState := hfs
  mem := hm

theorem Inv.fsm_idle (hi : Inv s) (hb : s.busy = false) : s.fsm = .idle := by
  by_contra hf
  simp [hi.busy_iff.2 hf] at hb

/-- The transport, the agenda and the host's log are outside the control invariant. -/
theorem Inv.setEnvironment (hi : Inv s) (rxq : List Byte) (txReady txEmpty : Bool) (agenda : List Move)
    (hostLog : List Byte) : Inv { s with rxq, txReady, txEmpty, agenda, hostLog } :=
  ⟨hi.busy_iff, hi.status, hi.phase, hi.idx, hi.poll, hi.failState, hi.mem⟩

/-! ## Finish, Enter, Advance and Start -/

theorem stateByte_toNat_le (st : FsmState) : (stateByte st).toNat ≤ 0x10 := by cases st <;> decide

/-- Finish leaves an idle block with one of the nine values of STATUS. -/
theorem inv_finish (code : ErrCode) (hfs : s.failState.toNat ≤ 0x10) (hm : Memory.wf s.mem = true) :
    Inv (finish code s) := by
  refine Inv.of_idle rfl rfl ?_ ?_ hm
  · change statusOf false true (code == .none) code ∈ legalStatus
    cases code <;> decide
  · rw [finish_failState]
    split
    · exact stateByte_toNat_le s.fsm
    · exact hfs

/-- Entry clears `idx` where it is counted, but for RSP_PAY whose range may be empty. -/
theorem idxInRange_enter {st : FsmState} (h : st ≠ .rspPay) (s : State) : idxInRange (enter st s) := by
  cases st <;> simp_all [idxInRange, entryClearsIdx]

theorem inv_enter {st : FsmState} (hr : RunsOp i s) (hp : st ∈ phasesOf i) (hx : idxInRange (enter st s)) :
    Inv (enter st s) :=
  RunsOp.inv ⟨hr.busy, hr.status, hr.decodes, hr.failState, hr.mem⟩ hp hx (by simp)

theorem advance_answers_inv (hr : RunsOp i s) (hp : s.fsm ∈ phasesOf i) (ha : s.fsm ∈ advancingStates) :
    ∃ t, advance i s = .next t ∧ Inv t := by
  obtain hs | ⟨st, hst, hpay, hs⟩ := successor_of_advancing ha hp
  · exact ⟨_, advance_finish hs, inv_finish .none hr.failState hr.mem⟩
  · exact ⟨_, advance_enter hs (ne_idle_of_mem_phasesOf hst), inv_enter hr hst (idxInRange_enter hpay s)⟩

theorem inv_startOp (hd : decodeOp s.op = .ok i) (clears : Bool) (hm : Memory.wf s.mem = true) :
    Inv (startOp (phasesOf i) clears s) := by
  obtain ⟨-, h⟩ | ⟨st, rest, hph, h⟩ := startOp_cases (phasesOf i) clears s
  · rw [h]
    exact Inv.of_idle rfl rfl (by change statusOf false true true .none ∈ legalStatus; decide) (Nat.zero_le _) hm
  · rw [h]
    refine inv_enter (i := i) ⟨rfl, ?_, hd, Nat.zero_le _, hm⟩ (by simp [hph])
      (idxInRange_enter (head_phasesOf_ne_rspPay hph) _)
    change statusOf true false false .none ∈ legalStatus
    decide

/-! ## The polling primitives -/

theorem inv_emptySample (hr : RunsOp i s) (hi : Inv s) (code : ErrCode) : Inv (emptySample code s) := by
  have hpoll := hi.poll hr.busy
  rw [emptySample_eq]
  split
  · exact inv_finish code hi.failState hi.mem
  · next hne =>
    refine ⟨hi.busy_iff, hi.status, hi.phase, hi.idx, fun _ => ?_, hi.failState, hi.mem⟩
    simp only [BitVec.ofNat_eq_ofNat, BitVec.toNat_add, BitVec.toNat_ofNat]
    omega

theorem awaitVerify_answers_inv {v : Byte} {e : ErrCode} {k : State → Res} (hr : RunsOp i s) (hi : Inv s)
    (hk : ∀ rest, ∃ t, k { s with rxq := rest } = .next t ∧ Inv t) : ∃ t, awaitVerify v e k s = .next t ∧ Inv t := by
  obtain ⟨-, h⟩ | ⟨rest, -, h⟩ | ⟨b, rest, -, -, h⟩ := awaitVerify_cases (v := v) (e := e) (k := k) (s := s)
  · exact ⟨_, h, inv_emptySample hr hi .timeout⟩
  · rw [h]; exact hk rest
  · exact ⟨_, h, inv_finish e hi.failState hi.mem⟩

theorem awaitTake_answers_inv {e : ErrCode} {k : Byte → State → Res} (hr : RunsOp i s) (hi : Inv s)
    (hk : ∀ b rest, ∃ t, k b { s with rxq := rest } = .next t ∧ Inv t) : ∃ t, awaitTake e k s = .next t ∧ Inv t := by
  obtain ⟨-, h⟩ | ⟨b, rest, -, h⟩ := awaitTake_cases (e := e) (k := k) (s := s)
  · exact ⟨_, h, inv_emptySample hr hi e⟩
  · rw [h]; exact hk b rest

/-! ## The state rules that index a buffer -/

theorem toNat_idx_succ {x : FrameIdx} (h : x.toNat < 511) : (x + 1).toNat = x.toNat + 1 := by
  simp only [BitVec.ofNat_eq_ofNat, BitVec.toNat_add, BitVec.toNat_ofNat]
  omega

theorem csumRunStep_answers_inv (hr : RunsOp i s) (hi : Inv s) (hp : s.fsm ∈ phasesOf i) (hf : s.fsm = .csumRun) :
    ∃ t, csumRunStep i s = .next t ∧ Inv t := by
  unfold csumRunStep
  split
  · next hlt =>
    have hlt : s.idx.toNat < s.len.toNat := hlt
    have hlen := s.len.isLt
    rw [bufRead_of_lt s (b := .tx) (by simp only [bufSize_tx]; omega)]
    refine ⟨_, rfl, RunsOp.inv (hr.setRegs ..) hp ?_ (hi.poll hr.busy)⟩
    simp only [idxInRange, csumStep_fsm, hf, csumStep_len, toNat_idx_succ (show s.idx.toNat < 511 by omega)]
    omega
  · exact advance_answers_inv (hr.setRegs ..) hp (by simp [hf, advancingStates])

/-- Every frame offset has its byte, for the payload is inside TXBUF (42_builder.md R151, R157). -/
theorem buildByte_eq_some (s : State) (o : Nat) : ∃ b, buildByte s o = some b := by
  have hlen : payloadLength s < 256 := s.len.isLt
  unfold buildByte
  iterate 4
    split
    · exact ⟨_, rfl⟩
  split
  · exact ⟨_, bufRead_of_lt s (by simp only [bufSize_tx]; omega)⟩
  · split
    · exact ⟨_, rfl⟩
    · split <;> exact ⟨_, rfl⟩

/-- BUILD_RUN's registers besides FRAMEBUF and `idx` are CSUM and the checksum engine's two (42_builder.md R151). -/
theorem buildRegs_eq (o : Nat) (b : Byte) (s : State) :
    ∃ csum acc seen, buildRegs o b s = { s with csum, acc, seen } := by
  unfold buildRegs
  split
  · exact ⟨_, _, _, rfl⟩
  · split <;> exact ⟨_, _, _, rfl⟩

theorem buildRunStep_answers_inv (hr : RunsOp i s) (hi : Inv s) (hp : s.fsm ∈ phasesOf i) (hf : s.fsm = .buildRun) :
    ∃ t, buildRunStep i s = .next t ∧ Inv t := by
  have hle : s.idx.toNat ≤ s.len.toNat + 6 := by simpa only [idxInRange, hf] using hi.idx
  have hlen := s.len.isLt
  have hframe : s.idx.toNat < bufSize .frame := by simp only [bufSize_frame]; omega
  obtain ⟨b, hb⟩ := buildByte_eq_some s s.idx.toNat
  obtain ⟨csum, acc, seen, hregs⟩ := buildRegs_eq s.idx.toNat b s
  have hstore := RunsOp.storeBuf (hr.setRegs s.rxLen csum acc seen s.idx s.poll s.k s.rxq s.txLog) hframe b
  simp only [buildRunStep, if_neg (Nat.not_lt.2 hle), hb, hregs, bufWrite_of_lt b _ hframe]
  split
  · exact advance_answers_inv hstore hp (by simp [hf, advancingStates])
  · next hne =>
    have hne : s.idx.toNat ≠ s.len.toNat + 6 := hne
    refine ⟨_, rfl, RunsOp.inv (hstore.setRegs ..) hp ?_ (hi.poll hr.busy)⟩
    simp only [idxInRange, storeAt_fsm, hf, storeAt_len, toNat_idx_succ (show s.idx.toNat < 511 by omega)]
    omega

theorem txSendStep_answers_inv (hr : RunsOp i s) (hi : Inv s) (hp : s.fsm ∈ phasesOf i) (hf : s.fsm = .txSend) :
    ∃ t, txSendStep i s = .next t ∧ Inv t := by
  have hle : s.idx.toNat ≤ s.len.toNat + 6 := by simpa only [idxInRange, hf] using hi.idx
  have hlen := s.len.isLt
  have hframe : s.idx.toNat < bufSize .frame := by simp only [bufSize_frame]; omega
  simp only [txSendStep, bufRead_of_lt s hframe]
  split
  · split
    · exact advance_answers_inv (hr.setRegs ..) hp (by simp [hf, advancingStates])
    · next hne =>
      have hne : s.idx.toNat ≠ s.len.toNat + 6 := hne
      refine ⟨_, rfl, RunsOp.inv (hr.setRegs ..) hp ?_ (hi.poll hr.busy)⟩
      simp only [idxInRange, txPush_fsm, hf, txPush_len, toNat_idx_succ (show s.idx.toNat < 511 by omega)]
      omega
  · exact ⟨s, rfl, hi⟩

theorem rspPayStep_answers_inv (hr : RunsOp i s) (hi : Inv s) (hp : s.fsm ∈ phasesOf i) (hf : s.fsm = .rspPay) :
    ∃ t, rspPayStep s = .next t ∧ Inv t := by
  have hlt : s.idx.toNat < s.rxLen.toNat := by simpa only [idxInRange, hf] using hi.idx
  have hlen := s.rxLen.isLt
  have hrx : s.idx.toNat < bufSize .rx := by simp only [bufSize_rx]; omega
  have hcsum : .rspCsum ∈ phasesOf i := ownTransition_mem_phasesOf (by decide) (hf ▸ hp)
  refine awaitTake_answers_inv hr hi fun b rest => ?_
  have hstore := RunsOp.storeBuf (hr.setRegs s.rxLen s.csum s.acc s.seen s.idx s.poll s.k rest s.txLog) hrx b
  simp only [bufWrite_of_lt b _ hrx]
  split
  · exact ⟨_, rfl, inv_enter (hstore.setRegs ..) hcsum (idxInRange_enter (by decide) _)⟩
  · next hne =>
    have hne : s.idx.toNat + 1 ≠ s.rxLen.toNat := hne
    refine ⟨_, rfl, RunsOp.inv (hstore.setRegs ..) hp ?_ (by simp)⟩
    simp only [idxInRange, csumStep_fsm, storeAt_fsm, hf, csumStep_rxLen, storeAt_rxLen,
      toNat_idx_succ (show s.idx.toNat < 511 by omega)]
    omega

/-! ## Every state rule -/

theorem drainFlushStep_answers_inv (hr : RunsOp i s) (hi : Inv s) (hp : s.fsm ∈ phasesOf i)
    (hf : s.fsm = .drainFlush) : ∃ t, drainFlushStep s = .next t ∧ Inv t := by
  unfold drainFlushStep
  split
  · exact ⟨_, rfl, inv_enter (hr.setRegs ..) (ownTransition_mem_phasesOf (by decide) (hf ▸ hp))
      (idxInRange_enter (by decide) _)⟩
  · exact ⟨s, rfl, hi⟩

theorem drainDiscardStep_answers_inv (hr : RunsOp i s) (hi : Inv s) (hp : s.fsm ∈ phasesOf i)
    (hf : s.fsm = .drainDiscard) : ∃ t, drainDiscardStep i s = .next t ∧ Inv t := by
  unfold drainDiscardStep
  split
  · exact advance_answers_inv hr hp (by simp [hf, advancingStates])
  · refine ⟨_, rfl, RunsOp.inv ⟨hr.busy, hr.status, hr.decodes, hr.failState, hr.mem⟩ hp ?_ (hi.poll hr.busy)⟩
    simp only [idxInRange, rxPop_fsm, hf]

/-- RSP_LEN enters RSP_PAY only with a byte of payload to take (43_reader.md R178). -/
theorem rspLenStep_answers_inv (hr : RunsOp i s) (hi : Inv s) (hp : s.fsm ∈ phasesOf i) (hf : s.fsm = .rspLen) :
    ∃ t, rspLenStep s = .next t ∧ Inv t := by
  have follows : ∀ st, (FsmState.rspLen, st) ∈ ownTransitions → st ∈ phasesOf i :=
    fun st h => ownTransition_mem_phasesOf h (hf ▸ hp)
  refine awaitTake_answers_inv hr hi fun b rest => ?_
  split
  · exact ⟨_, rfl, inv_enter (hr.setRegs ..) (follows .rspCsum (by decide)) (idxInRange_enter (by decide) _)⟩
  · next hb =>
    refine ⟨_, rfl, inv_enter (hr.setRegs ..) (follows .rspPay (by decide)) ?_⟩
    have hpos : b.toNat ≠ 0 := fun h => hb (BitVec.eq_of_toNat_eq h)
    change (0 : FrameIdx).toNat < b.toNat
    exact Nat.pos_of_ne_zero hpos

/-- An await state whose match enters the next state of the operation. -/
theorem awaitVerify_enter_answers_inv {v : Byte} {e : ErrCode} {st : FsmState} {upd : State → State} (hr : RunsOp i s)
    (hi : Inv s) (hp : s.fsm ∈ phasesOf i) (hst : (s.fsm, st) ∈ ownTransitions) (hpay : st ≠ .rspPay)
    (hupd : ∀ u, RunsOp i u → RunsOp i (upd u)) :
    ∃ t, awaitVerify v e (fun u => .next (enter st (upd u))) s = .next t ∧ Inv t :=
  awaitVerify_answers_inv hr hi fun _ => ⟨_, rfl,
    inv_enter (hupd _ (hr.setRegs ..)) (ownTransition_mem_phasesOf hst hp) (idxInRange_enter hpay _)⟩

/-- An await state whose match ends the phase. -/
theorem awaitVerify_advance_answers_inv {v : Byte} {e : ErrCode} (hr : RunsOp i s) (hi : Inv s)
    (hp : s.fsm ∈ phasesOf i) (ha : s.fsm ∈ advancingStates) : ∃ t, awaitVerify v e (advance i) s = .next t ∧ Inv t :=
  awaitVerify_answers_inv hr hi fun _ => advance_answers_inv (hr.setRegs ..) hp ha

/-- A block step of a running operation answers, and keeps the control invariant. -/
theorem stateRule_answers_inv (hi : Inv s) (hb : s.busy = true) (hd : decodeOp s.op = .ok i)
    (hp : s.fsm ∈ phasesOf i) : ∃ t, stateRule i s = .next t ∧ Inv t := by
  have hr := RunsOp.ofInv hi hb hd
  have scans : ∀ (c : State → Byte) u, RunsOp i u → RunsOp i (csumStep (c u) u) := fun _ _ h => h.setRegs ..
  cases hf : s.fsm <;> simp only [stateRule, hf]
  case idle => exact ⟨s, rfl, hi⟩
  case csumRun => exact csumRunStep_answers_inv hr hi hp hf
  case buildRun => exact buildRunStep_answers_inv hr hi hp hf
  case txSend => exact txSendStep_answers_inv hr hi hp hf
  case drainFlush => exact drainFlushStep_answers_inv hr hi hp hf
  case drainDiscard => exact drainDiscardStep_answers_inv hr hi hp hf
  case ack0 | rspSof0 | rspSof1 | rspCsum | rspEof0 =>
    exact awaitVerify_enter_answers_inv (upd := id) hr hi hp (by rw [hf]; decide) (by decide) fun _ => id
  case ack1 | rspEof1 => exact awaitVerify_advance_answers_inv hr hi hp (by rw [hf]; decide)
  case rspCmdh => exact awaitVerify_enter_answers_inv hr hi hp (by rw [hf]; decide) (by decide) (scans _)
  case rspCmdl => exact awaitVerify_enter_answers_inv hr hi hp (by rw [hf]; decide) (by decide) (scans expectedByte)
  case rspLen => exact rspLenStep_answers_inv hr hi hp hf
  case rspPay => exact rspPayStep_answers_inv hr hi hp hf

/-! ## Every move, every step, every run -/

theorem clockTick_answers_inv (hi : Inv s) : ∃ t, clockTick s = .next t ∧ Inv t := by
  cases hb : s.busy with
  | false => exact ⟨s, clockTick_idle hb, hi⟩
  | true =>
    obtain ⟨i, hd, hp⟩ := hi.phase hb
    rw [clockTick_rule hb hd hp]
    exact stateRule_answers_inv hi hb hd hp

theorem startCode_answers (hb : s.busy = false) (v : Byte) : ∃ t, startCode v s = .next t := by
  unfold startCode
  split
  · exact ⟨_, exec_idle hb⟩
  · exact ⟨_, rfl⟩

/-- A host write answers in every state. -/
theorem hostWrite_answers (a : HostAddr) (v : Byte) (s : State) : ∃ t, hostWrite a v s = .next t := by
  unfold hostWrite hostWriteIdle
  split
  · exact ⟨s, rfl⟩
  · next hb =>
    split
    · exact startCode_answers (s := { s with op := v }) (by simpa using hb) v
    · repeat' split
      all_goals exact ⟨_, rfl⟩

theorem hostWrite_answers_inv (hi : Inv s) (a : HostAddr) (v : Byte) : ∃ t, hostWrite a v s = .next t ∧ Inv t := by
  obtain ⟨t, h⟩ := hostWrite_answers a v s
  refine ⟨t, h, ?_⟩
  obtain ⟨-, rfl⟩ | ⟨-, -, i, hd, rfl⟩ | ⟨-, -, -, rfl⟩ | ⟨hb, -, rfl⟩ | ⟨hb, -, rfl⟩ | ⟨hb, -, rfl⟩
    | ⟨hb, hlo, hhi, rfl⟩ | ⟨-, rfl⟩ := hostWrite_next h
  case inl => exact hi
  case inr.inl => exact inv_startOp hd _ hi.mem
  case inr.inr.inl => exact inv_finish .illegalOp (Nat.zero_le _) hi.mem
  case inr.inr.inr.inl | inr.inr.inr.inr.inl | inr.inr.inr.inr.inr.inl =>
    exact Inv.of_idle hb (hi.fsm_idle hb) hi.status hi.failState hi.mem
  case inr.inr.inr.inr.inr.inr.inl =>
    exact Inv.of_idle hb (hi.fsm_idle hb) hi.status hi.failState
      (memWrite_keeps_wf ((isBufferAddr_iff _).2 (.inl ⟨hlo, hhi⟩)) hi.mem)
  case inr.inr.inr.inr.inr.inr.inr => exact hi

theorem inv_resetEvent (s : State) : Inv (resetEvent s) :=
  Inv.of_idle rfl rfl (by change statusOf false false false .none ∈ legalStatus; decide) (Nat.zero_le _) reset_mem_wf

theorem hostItem_answers_inv (hi : Inv s) (x : HostItem) : ∃ t, hostItem x s = .next t ∧ Inv t := by
  cases x with
  | wait => exact ⟨_, rfl, hi.setEnvironment ..⟩
  | access y =>
    cases y with
    | read a => exact ⟨_, rfl, hi.setEnvironment ..⟩
    | write a v => exact hostWrite_answers_inv hi a v

theorem performMove_answers_inv (hi : Inv s) (m : Move) : ∃ t, performMove m s = .next t ∧ Inv t := by
  cases m with
  | clock => exact clockTick_answers_inv hi
  | host x => exact hostItem_answers_inv hi x
  | reset => exact ⟨_, rfl, inv_resetEvent s⟩
  | arrive | setTxReady | setTxEmpty | steal => exact ⟨_, rfl, hi.setEnvironment ..⟩

/-- From a state with the control invariant the next step answers, and keeps the invariant. -/
theorem step_answers_inv (hi : Inv s) : ∃ t, step s = .next t ∧ Inv t := by
  cases ha : s.agenda with
  | nil => rw [step_nil ha]; exact clockTick_answers_inv hi
  | cons m rest => rw [step_cons ha]; exact performMove_answers_inv (hi.setEnvironment ..) m

/-- So does a run of any length. -/
theorem run_answers_inv (hi : Inv s) (n : Nat) : ∃ t, run n s = .next t ∧ Inv t := by
  induction n generalizing s with
  | zero => exact ⟨s, rfl, hi⟩
  | succ n ih =>
    obtain ⟨u, hs, hu⟩ := step_answers_inv hi
    rw [run_succ hs]
    exact ih hu

/-! ## The agenda

Only the `wait` loop writes the agenda (30_encoding.md R94; log 10), so every other move leaves what was to come. -/

variable {t : State}

theorem advance_agenda (h : advance i s = .next t) : t.agenda = s.agenda := by
  obtain ⟨-, rfl⟩ | ⟨st, -, -, rfl⟩ := advance_next h <;> rfl

theorem startOp_agenda (phases : List FsmState) (clears : Bool) (s : State) :
    (startOp phases clears s).agenda = s.agenda := by
  cases phases <;> rfl

theorem emptySample_agenda (code : ErrCode) (s : State) : (emptySample code s).agenda = s.agenda := by
  rw [emptySample_eq]
  split <;> rfl

theorem awaitVerify_agenda {v : Byte} {e : ErrCode} {k : State → Res}
    (hk : ∀ rest, k { s with rxq := rest } = .next t → t.agenda = s.agenda) (h : awaitVerify v e k s = .next t) :
    t.agenda = s.agenda := by
  obtain ⟨-, h'⟩ | ⟨rest, -, h'⟩ | ⟨b, rest, -, -, h'⟩ := awaitVerify_cases (v := v) (e := e) (k := k) (s := s)
    <;> rw [h'] at h
  · rw [← Host.Outcome.next.inj h, emptySample_agenda]
  · exact hk rest h
  · rw [← Host.Outcome.next.inj h, failCompare_agenda]

theorem awaitTake_agenda {e : ErrCode} {k : Byte → State → Res}
    (hk : ∀ b rest, k b { s with rxq := rest } = .next t → t.agenda = s.agenda) (h : awaitTake e k s = .next t) :
    t.agenda = s.agenda := by
  obtain ⟨-, h'⟩ | ⟨b, rest, -, h'⟩ := awaitTake_cases (e := e) (k := k) (s := s) <;> rw [h'] at h
  · rw [← Host.Outcome.next.inj h, emptySample_agenda]
  · exact hk b rest h

theorem csumRunStep_agenda (h : csumRunStep i s = .next t) : t.agenda = s.agenda := by
  obtain ⟨-, rfl⟩ | ⟨-, h⟩ := csumRunStep_next h
  · rfl
  · exact (advance_agenda h :)

theorem buildRunStep_agenda (h : buildRunStep i s = .next t) : t.agenda = s.agenda := by
  obtain ⟨b, u, -, hu, hend⟩ := buildRunStep_next h
  obtain ⟨csum, acc, seen, hregs⟩ := buildRegs_eq s.idx.toNat b s
  have hua : u.agenda = s.agenda := by rw [hu, hregs]; rfl
  obtain ⟨-, h⟩ | ⟨-, rfl⟩ := hend
  · exact (advance_agenda h).trans hua
  · exact hua

theorem txSendStep_agenda (h : txSendStep i s = .next t) : t.agenda = s.agenda := by
  obtain ⟨-, rfl⟩ | ⟨-, -, h⟩ | ⟨-, -, rfl⟩ := txSendStep_next h
  · rfl
  · exact (advance_agenda h :)
  · rfl

theorem drainFlushStep_agenda (h : drainFlushStep s = .next t) : t.agenda = s.agenda := by
  obtain ⟨-, rfl⟩ | ⟨-, rfl⟩ := drainFlushStep_next h <;> rfl

theorem drainDiscardStep_agenda (h : drainDiscardStep i s = .next t) : t.agenda = s.agenda := by
  obtain ⟨-, h⟩ | ⟨-, rfl⟩ := drainDiscardStep_next h
  · exact (advance_agenda h :)
  · rfl

theorem rspPayStep_agenda (h : rspPayStep s = .next t) : t.agenda = s.agenda := by
  refine awaitTake_agenda (fun b rest hk => ?_) h
  split at hk
  · cases hk
  · next u hu =>
    obtain ⟨-, rfl⟩ := bufWrite_eq_some hu
    split at hk <;> rw [← Host.Outcome.next.inj hk] <;> rfl

/-- No block step writes the agenda. -/
theorem stateRule_agenda (h : stateRule i s = .next t) : t.agenda = s.agenda := by
  cases hf : s.fsm <;> simp only [stateRule, hf] at h
  case idle => rw [Host.Outcome.next.inj h]
  case csumRun => exact csumRunStep_agenda h
  case buildRun => exact buildRunStep_agenda h
  case txSend => exact txSendStep_agenda h
  case drainFlush => exact drainFlushStep_agenda h
  case drainDiscard => exact drainDiscardStep_agenda h
  case ack0 | rspSof0 | rspSof1 | rspCmdh | rspCmdl | rspCsum | rspEof0 =>
    exact awaitVerify_agenda (fun rest hk => by rw [← Host.Outcome.next.inj hk]; rfl) h
  case ack1 | rspEof1 => exact awaitVerify_agenda (fun rest hk => (advance_agenda hk :)) h
  case rspLen => exact awaitTake_agenda (fun b rest hk => by rw [← Host.Outcome.next.inj hk]; rfl) h
  case rspPay => exact rspPayStep_agenda h

theorem clockTick_agenda (h : clockTick s = .next t) : t.agenda = s.agenda := by
  obtain ⟨-, rfl⟩ | ⟨i, -, -, -, h⟩ := clockTick_next h
  · rfl
  · exact stateRule_agenda h

theorem hostWrite_agenda {a : HostAddr} {v : Byte} (h : hostWrite a v s = .next t) : t.agenda = s.agenda := by
  obtain ⟨-, rfl⟩ | ⟨-, -, i, -, rfl⟩ | ⟨-, -, -, rfl⟩ | ⟨-, -, rfl⟩ | ⟨-, -, rfl⟩ | ⟨-, -, rfl⟩
    | ⟨-, -, -, rfl⟩ | ⟨-, rfl⟩ := hostWrite_next h
  case inr.inl => exact startOp_agenda ..
  all_goals rfl

/-- A move that is not the `wait` loop leaves the moves to come as they are. -/
theorem performMove_agenda {m : Move} (hm : m ≠ .host .wait) (h : performMove m s = .next t) : t.agenda = s.agenda := by
  cases m with
  | clock => exact clockTick_agenda h
  | host x =>
    cases x with
    | wait => exact absurd rfl hm
    | access y =>
      cases y with
      | read a => rw [← Host.Outcome.next.inj h, logRead_agenda]
      | write a v => exact hostWrite_agenda h
  | arrive | setTxReady | setTxEmpty | steal | reset => exact (Host.Outcome.next.inj h) ▸ rfl

/-- A step whose move is not the `wait` loop takes that one move off the agenda. -/
theorem step_agenda {m : Move} {rest : List Move} (ha : s.agenda = m :: rest) (hm : m ≠ .host .wait)
    (h : step s = .next t) : t.agenda = rest :=
  performMove_agenda hm (by rwa [step_cons ha] at h)

/-- Without a `wait` loop, a run of as many steps as the agenda has moves ends with an empty agenda. -/
theorem run_uses_up_agenda {ms : List Move} (ha : s.agenda = ms) (hw : .host .wait ∉ ms)
    (h : run ms.length s = .next t) : t.agenda = [] := by
  induction ms generalizing s with
  | nil => rw [← Host.Outcome.next.inj h, ha]
  | cons m rest ih =>
    obtain ⟨hm, hrest⟩ := List.ne_and_not_mem_of_not_mem_cons hw
    obtain ⟨u, hs, hu⟩ := run_succ_next h
    exact ih (step_agenda ha hm.symm hs) hrest hu

/-- Settles O58: the invariant makes the run answer, and each of its steps takes one move off the agenda. -/
theorem aFiniteAgendaIsUsedUp : Obligations.AFiniteAgendaIsUsedUp := by
  refine ⟨fun s hi hw => ?_, fun s t hw h => run_uses_up_agenda rfl hw h⟩
  obtain ⟨t, h, -⟩ := run_answers_inv hi s.agenda.length
  exact ⟨t, h, run_uses_up_agenda rfl hw h⟩

end Sys2Proof.Machine
end

section
/-!
PROOFS. STATUS, and what changes STATUS, CSUM and `seen` (10_state.md R22, R31, R38).

A block step first works on the registers (`WorkDone`) and then stays, finishes or enters a state (`StepEnds`):
`stateRule_blockStep` says so of every state rule. A step is such a block step, a Start, or leaves STATUS, CSUM and
`seen` as they are (`step_changes`), so each statement is read off these cases.
-/
namespace Sys2Proof.Machine

variable {i : Instr} {s t u : State}

/-! ## The invariants at reset and along a step -/

/-- Settles O7: the block is idle after reset, and the data invariant and the drain cover speak of a running one. -/
theorem resetHasTheInvariants : Obligations.ResetHasTheInvariants := by
  have hbusy : State.reset.busy ≠ true := by decide
  have hfsm : State.reset.fsm ≠ .drainDiscard := by decide
  exact ⟨Inv.of_idle rfl rfl (by decide) (Nat.zero_le _) reset_mem_wf, fun hb => absurd hb hbusy,
    fun hf => absurd hf hfsm⟩

/-- Settles O50: the step that answers is the one that keeps the invariant. -/
theorem everyStepKeepsTheControlInvariant : Obligations.EveryStepKeepsTheControlInvariant := by
  intro s t hi h
  obtain ⟨u, hu, hinv⟩ := step_answers_inv hi
  have htu : t = u := Host.Outcome.next.inj (h.symm.trans hu)
  exact htu ▸ hinv

/-! ## STATUS (10_state.md R22, Table 10-2) -/

/-- The bits of STATUS above BUSY. -/
theorem statusOf_fields (busy done ok : Bool) (err : ErrCode) :
    (statusOf busy done ok err).getLsbD 1 = done ∧ (statusOf busy done ok err).getLsbD 2 = ok
      ∧ (statusOf busy done ok err).getLsbD 3 = false
      ∧ (statusOf busy done ok err).extractLsb' 4 3 = errNumber err
      ∧ (statusOf busy done ok err).getLsbD 7 = false := by
  revert busy done ok
  cases err <;> decide

theorem statusByte_finish (code : ErrCode) (s : State) :
    statusByte (finish code s) = statusOf false true (code == .none) code := rfl

/-- Among the nine values of STATUS, bit 0 is set in 0x01 alone. -/
theorem legalStatus_bit_busy : ∀ v ∈ legalStatus, v.getLsbD 0 = true ↔ v = 0x01 := by decide

/-- Settles O13: the fields by their bits, and the nine values from the control invariant. -/
theorem statusHasItsFieldsAndNineValues : Obligations.StatusHasItsFieldsAndNineValues := by
  refine ⟨fun s => ⟨statusByte_bit_busy s, statusOf_fields s.busy s.done s.ok s.err⟩, by decide, fun s => ?_,
    fun s hi => ⟨hi.status, ?_⟩⟩
  · simp only [statusByte_finish]
    decide
  · rw [← legalStatus_bit_busy _ hi.status, statusByte_bit_busy]

/-! ## A block step: its work, and how it ends -/

/-- The states whose rule runs CsumStep (41_checksum.md R138; 42_builder.md R151; 43_reader.md R176 to R179). -/
def scanningStates : List FsmState := [.csumRun, .buildRun, .rspCmdh, .rspCmdl, .rspLen, .rspPay]

/-- What a block step may do to STATUS, CSUM and `seen` before it ends, while `state` is still the one it began in. -/
structure WorkDone (s u : State) : Prop where
  fsm : u.fsm = s.fsm
  status : statusByte u = statusByte s
  csum : u.csum = s.csum
    ∨ (s.fsm = .csumRun ∧ s.len.toNat ≤ s.idx.toNat ∧ u.csum = s.acc)
    ∨ (s.fsm = .buildRun ∧ s.idx.toNat = 4 + s.len.toNat ∧ u.csum = s.acc)
  seen : u.seen = s.seen ∨ s.fsm ∈ scanningStates

/-- How a block step of the operation `i` ends: it stays in its state, it finishes, or it enters a state that follows
by the rule itself or by Table 40-1. -/
inductive StepEnds (i : Instr) (u t : State) : Prop where
  | stays (h : t = u)
  | finishes (code : ErrCode) (h : t = finish code u)
  | enters (st : FsmState) (follows : (u.fsm, st) ∈ ownTransitions ∨ successor u.fsm i = some st) (h : t = enter st u)

/-- A block step of the operation `i` that answers: work, then an end. -/
def BlockStep (i : Instr) (s t : State) : Prop := ∃ u, WorkDone s u ∧ StepEnds i u t

namespace WorkDone

theorem refl (s : State) : WorkDone s s := ⟨rfl, rfl, .inl rfl, .inl rfl⟩

/-- The registers that `WorkDone` does not speak of may take any value. -/
theorem setRegs (hw : WorkDone s u) (rxLen failByte acc : Byte) (idx : FrameIdx) (poll : PollCount) (k : Nat)
    (mem : List Host.Cell) (rxq txLog : List Byte) (rxDraws : Nat) :
    WorkDone s { u with rxLen, failByte, acc, idx, poll, k, mem, rxq, txLog, rxDraws } :=
  ⟨hw.fsm, hw.status, hw.csum, hw.seen⟩

theorem afterCsumStep (hw : WorkDone s u) (hf : s.fsm ∈ scanningStates) (b : Byte) : WorkDone s (csumStep b u) :=
  ⟨hw.fsm, hw.status, hw.csum, .inr hf⟩

/-- BUILD_RUN writes CSUM at offset 4 + N and runs CsumStep at the offsets before it (42_builder.md R151). -/
theorem afterBuildRegs (hf : s.fsm = .buildRun) (b : Byte) : WorkDone s (buildRegs s.idx.toNat b s) := by
  unfold buildRegs
  split
  · exact (refl s).afterCsumStep (by simp [hf, scanningStates]) b
  · split
    · next he => exact ⟨rfl, rfl, .inr (.inr ⟨hf, he, rfl⟩), .inl rfl⟩
    · exact refl s

end WorkDone

/-- Advance ends a block step. -/
theorem WorkDone.advance_blockStep (hw : WorkDone s u) (h : advance i u = .next t) : BlockStep i s t := by
  obtain ⟨-, ht⟩ | ⟨st, -, hst, ht⟩ := advance_next h
  · exact ⟨u, hw, .finishes .none ht⟩
  · exact ⟨u, hw, .enters st (.inr hst) ht⟩

/-- A rule's own transition ends a block step. -/
theorem WorkDone.enter_blockStep {st : FsmState} (hw : WorkDone s u) (hst : (s.fsm, st) ∈ ownTransitions) :
    BlockStep i s (enter st u) :=
  ⟨u, hw, .enters st (.inl (hw.fsm ▸ hst)) rfl⟩

theorem WorkDone.stay_blockStep (hw : WorkDone s t) : BlockStep i s t := ⟨t, hw, .stays rfl⟩

/-! ## Every state rule -/

theorem emptySample_blockStep (code : ErrCode) (s : State) : BlockStep i s (emptySample code s) := by
  have hw : WorkDone s { s with poll := s.poll + 1 } := (WorkDone.refl s).setRegs ..
  rw [emptySample_eq]
  split
  · exact ⟨_, hw, .finishes code rfl⟩
  · exact hw.stay_blockStep

theorem awaitVerify_blockStep {v : Byte} {e : ErrCode} {k : State → Res}
    (hk : ∀ rest, k { s with rxq := rest } = .next t → BlockStep i s t) (h : awaitVerify v e k s = .next t) :
    BlockStep i s t := by
  obtain ⟨-, h'⟩ | ⟨rest, -, h'⟩ | ⟨b, rest, -, -, h'⟩ := awaitVerify_cases (v := v) (e := e) (k := k) (s := s)
    <;> rw [h'] at h
  · exact Host.Outcome.next.inj h ▸ emptySample_blockStep .timeout s
  · exact hk rest h
  · exact ⟨{ s with failByte := b }, (WorkDone.refl s).setRegs .., .finishes e (Host.Outcome.next.inj h).symm⟩

theorem awaitTake_blockStep {e : ErrCode} {k : Byte → State → Res}
    (hk : ∀ b rest, k b { s with rxq := rest } = .next t → BlockStep i s t) (h : awaitTake e k s = .next t) :
    BlockStep i s t := by
  obtain ⟨-, h'⟩ | ⟨b, rest, -, h'⟩ := awaitTake_cases (e := e) (k := k) (s := s) <;> rw [h'] at h
  · exact Host.Outcome.next.inj h ▸ emptySample_blockStep e s
  · exact hk b rest h

/-- An await state whose match enters the next state. -/
theorem awaitVerify_enter_blockStep {v : Byte} {e : ErrCode} {st : FsmState} {upd : State → State}
    (hst : (s.fsm, st) ∈ ownTransitions) (hupd : ∀ u, WorkDone s u → WorkDone s (upd u))
    (h : awaitVerify v e (fun u => .next (enter st (upd u))) s = .next t) : BlockStep i s t :=
  awaitVerify_blockStep (k := fun u => .next (enter st (upd u))) (fun rest hk => Host.Outcome.next.inj hk ▸
    (hupd { s with rxq := rest } ((WorkDone.refl s).setRegs ..)).enter_blockStep hst) h

theorem csumRunStep_blockStep (hf : s.fsm = .csumRun) (h : csumRunStep i s = .next t) : BlockStep i s t := by
  obtain ⟨-, rfl⟩ | ⟨hle, h⟩ := csumRunStep_next h
  · exact (((WorkDone.refl s).afterCsumStep (by simp [hf, scanningStates]) _).setRegs ..).stay_blockStep
  · have hw : WorkDone s { s with csum := s.acc } := ⟨rfl, rfl, .inr (.inl ⟨hf, hle, rfl⟩), .inl rfl⟩
    exact hw.advance_blockStep h

theorem buildRunStep_blockStep (hf : s.fsm = .buildRun) (h : buildRunStep i s = .next t) : BlockStep i s t := by
  obtain ⟨b, u, -, rfl, hend⟩ := buildRunStep_next h
  have hw : WorkDone s (storeAt (0x400 + s.idx.toNat) b (buildRegs s.idx.toNat b s)) :=
    (WorkDone.afterBuildRegs hf b).setRegs ..
  obtain ⟨-, h⟩ | ⟨-, rfl⟩ := hend
  · exact hw.advance_blockStep h
  · exact (hw.setRegs ..).stay_blockStep

theorem txSendStep_blockStep (h : txSendStep i s = .next t) : BlockStep i s t := by
  obtain ⟨-, rfl⟩ | ⟨-, -, h⟩ | ⟨-, -, rfl⟩ := txSendStep_next h
  · exact (WorkDone.refl t).stay_blockStep
  · exact ((WorkDone.refl s).setRegs ..).advance_blockStep h
  · exact ((WorkDone.refl s).setRegs ..).stay_blockStep

theorem drainFlushStep_blockStep (hf : s.fsm = .drainFlush) (h : drainFlushStep s = .next t) : BlockStep i s t := by
  obtain ⟨-, rfl⟩ | ⟨-, rfl⟩ := drainFlushStep_next h
  · exact (WorkDone.refl t).stay_blockStep
  · have hw : WorkDone s { s with k := s.rxq.length } := (WorkDone.refl s).setRegs ..
    exact hw.enter_blockStep (st := .drainDiscard) (by rw [hf]; decide)

theorem drainDiscardStep_blockStep (h : drainDiscardStep i s = .next t) : BlockStep i s t := by
  obtain ⟨-, h⟩ | ⟨-, rfl⟩ := drainDiscardStep_next h
  · exact (WorkDone.refl s).advance_blockStep h
  · exact ((WorkDone.refl s).setRegs ..).stay_blockStep

theorem rspLenStep_blockStep (hf : s.fsm = .rspLen) (h : rspLenStep s = .next t) : BlockStep i s t := by
  refine awaitTake_blockStep (fun b rest hk => ?_) h
  have hw : WorkDone s (csumStep b { s with rxq := rest, rxLen := b }) :=
    WorkDone.afterCsumStep ((WorkDone.refl s).setRegs ..) (by rw [hf]; decide) b
  rw [← Host.Outcome.next.inj hk]
  exact hw.enter_blockStep (by rw [hf]; split <;> decide)

theorem rspPayStep_blockStep (hf : s.fsm = .rspPay) (h : rspPayStep s = .next t) : BlockStep i s t := by
  refine awaitTake_blockStep (fun b rest hk => ?_) h
  split at hk
  · cases hk
  · next u hu =>
    obtain ⟨-, rfl⟩ := bufWrite_eq_some hu
    have hw := WorkDone.afterCsumStep (u := storeAt (bufBase .rx + s.idx.toNat) b { s with rxq := rest })
      ((WorkDone.refl s).setRegs ..) (by rw [hf]; decide) b
    split at hk <;> rw [← Host.Outcome.next.inj hk]
    · exact hw.enter_blockStep (by rw [hf]; decide)
    · exact (hw.setRegs ..).stay_blockStep

/-- A state rule that answers has made a block step. -/
theorem stateRule_blockStep (h : stateRule i s = .next t) : BlockStep i s t := by
  have scans : ∀ (hf : s.fsm ∈ scanningStates) (c : State → Byte) u, WorkDone s u → WorkDone s (csumStep (c u) u) :=
    fun hf c u hw => hw.afterCsumStep hf (c u)
  cases hf : s.fsm <;> simp only [stateRule, hf] at h
  case idle => exact Host.Outcome.next.inj h ▸ (WorkDone.refl s).stay_blockStep
  case csumRun => exact csumRunStep_blockStep hf h
  case buildRun => exact buildRunStep_blockStep hf h
  case txSend => exact txSendStep_blockStep h
  case drainFlush => exact drainFlushStep_blockStep hf h
  case drainDiscard => exact drainDiscardStep_blockStep h
  case ack0 | rspSof0 | rspSof1 | rspCsum | rspEof0 =>
    exact awaitVerify_enter_blockStep (upd := id) (by rw [hf]; decide) (fun _ => id) h
  case ack1 | rspEof1 =>
    exact awaitVerify_blockStep (fun _ hk => ((WorkDone.refl s).setRegs ..).advance_blockStep hk) h
  case rspCmdh => exact awaitVerify_enter_blockStep (by rw [hf]; decide) (scans (by rw [hf]; decide) _) h
  case rspCmdl => exact awaitVerify_enter_blockStep (by rw [hf]; decide) (scans (by rw [hf]; decide) expectedByte) h
  case rspLen => exact rspLenStep_blockStep hf h
  case rspPay => exact rspPayStep_blockStep hf h

/-! ## What the end of a block step changes -/

/-- The two transitions of a block step that run CsumInit (40_dispatch.md R111, Table 40-1). -/
theorem transition_inits_csum {st st' : FsmState}
    (h : (st, st') ∈ ownTransitions ∨ successor st i = some st') (he : entryInitsCsum st' = true) :
    (st = .drainDiscard ∧ st' = .buildRun) ∨ (st = .ack1 ∧ st' = .rspSof0) := by
  obtain h | h := h
  · have own : ∀ p ∈ ownTransitions, entryInitsCsum p.2 = false := by decide
    simp [own _ h] at he
  · unfold successor at h
    split at h <;> cases h <;> revert he <;> decide

/-- STATUS changes only where a block step finishes. -/
theorem BlockStep.status_or_finished (hb : BlockStep i s t) :
    statusByte t = statusByte s ∨ (t.busy = false ∧ t.fsm = .idle) := by
  obtain ⟨u, hw, ht | ⟨code, rfl⟩ | ⟨st, -, rfl⟩⟩ := hb
  · exact .inl (ht ▸ hw.status)
  · exact .inr ⟨rfl, rfl⟩
  · exact .inl hw.status

/-- Only the entry of RSP_CSUM writes CSUM at the end of a block step, with `acc` (40_dispatch.md R111). -/
theorem StepEnds.csum_eq (h : StepEnds i u t) : t.csum = u.csum ∨ (t.fsm = .rspCsum ∧ t.csum = t.acc) := by
  obtain rfl | ⟨code, rfl⟩ | ⟨st, -, rfl⟩ := h
  · exact .inl rfl
  · exact .inl rfl
  · cases st with
    | rspCsum => exact .inr ⟨rfl, rfl⟩
    | _ => exact .inl rfl

/-- Only the two entries that run CsumInit write `seen` at the end of a block step. -/
theorem StepEnds.seen_eq (h : StepEnds i u t) :
    t.seen = u.seen ∨ (u.fsm = .drainDiscard ∧ t.fsm = .buildRun) ∨ (u.fsm = .ack1 ∧ t.fsm = .rspSof0) := by
  obtain rfl | ⟨code, rfl⟩ | ⟨st, hst, rfl⟩ := h
  · exact .inl rfl
  · exact .inl rfl
  · cases he : entryInitsCsum st with
    | true => exact .inr (transition_inits_csum hst he)
    | false => exact .inl (by simp [he])

/-! ## What Start changes -/

/-- What a Start does to CSUM and `seen`: nothing, but for CsumInit where the first state runs it. -/
structure StartChanges (s t : State) : Prop where
  csum : t.csum = s.csum
  seen : t.seen = s.seen ∨ t.fsm ∈ [FsmState.csumRun, .buildRun, .rspSof0]

theorem head_phasesOf_not_latches {st : FsmState} {rest : List FsmState} (h : phasesOf i = st :: rest) :
    entryLatchesCsum st = false := by
  have heads : ∀ st ∈ (phasesOf i).head?, entryLatchesCsum st = false := by cases i <;> decide
  exact heads st (by rw [h, List.head?_cons]; rfl)

theorem startOp_changes (i : Instr) (clears : Bool) (s : State) : StartChanges s (startOp (phasesOf i) clears s) := by
  obtain ⟨-, h⟩ | ⟨st, rest, hph, h⟩ := startOp_cases (phasesOf i) clears s <;> rw [h]
  · exact ⟨rfl, .inl rfl⟩
  · refine ⟨by simp [head_phasesOf_not_latches hph], ?_⟩
    cases st with
    | csumRun | buildRun | rspSof0 => exact .inr (by simp)
    | _ => exact .inl rfl

/-! ## Every step -/

/-- A step other than reset is a block step, a Start by a host write to OP while BUSY = 0, or leaves STATUS, CSUM and
`seen` as they are. -/
theorem step_changes (hr : s.agenda.head? ≠ some .reset) (h : step s = .next t) :
    (isClock s ∧ s.busy = true ∧ ∃ i, BlockStep i { s with agenda := s.agenda.tail } t)
      ∨ (s.busy = false ∧ (∃ v rest, s.agenda = .host (.access (.write 0x000 v)) :: rest) ∧ StartChanges s t)
      ∨ (statusByte t = statusByte s ∧ t.csum = s.csum ∧ t.seen = s.seen) := by
  obtain ⟨u, rfl, ⟨hc, h⟩ | ⟨a, v, ha, h⟩ | ⟨a, -, rfl⟩ | ⟨-, rfl⟩ | ⟨bs, -, rfl⟩ | ⟨b, -, rfl⟩ | ⟨b, -, rfl⟩
    | ⟨-, rfl⟩ | ⟨hreset, -⟩⟩ := step_next h
  case inl =>
    obtain ⟨-, rfl⟩ | ⟨i, hb, -, -, h⟩ := clockTick_next h
    · exact .inr (.inr ⟨rfl, rfl, rfl⟩)
    · exact .inl ⟨hc, hb, i, stateRule_blockStep h⟩
  case inr.inl =>
    have writesOp (h0 : a = 0x000) : ∃ v rest, s.agenda = .host (.access (.write 0x000 v)) :: rest :=
      ⟨v, s.agenda.tail, List.eq_cons_of_mem_head? (h0 ▸ ha)⟩
    obtain ⟨-, rfl⟩ | ⟨hb, h0, i, -, rfl⟩ | ⟨hb, h0, -, rfl⟩ | ⟨-, -, rfl⟩ | ⟨-, -, rfl⟩ | ⟨-, -, rfl⟩
      | ⟨-, -, -, rfl⟩ | ⟨-, rfl⟩ := hostWrite_next h
    case inr.inl =>
      obtain ⟨hcsum, hseen⟩ := startOp_changes i (i == .readResp || i == .execReq)
        { s with agenda := s.agenda.tail, op := v }
      exact .inr (.inl ⟨hb, writesOp h0, hcsum, hseen⟩)
    case inr.inr.inl => exact .inr (.inl ⟨hb, writesOp h0, rfl, .inl rfl⟩)
    all_goals exact .inr (.inr ⟨rfl, rfl, rfl⟩)
  case inr.inr.inr.inr.inr.inr.inr.inr => exact absurd hreset hr
  all_goals exact .inr (.inr ⟨rfl, rfl, rfl⟩)

/-- Settles O56: a block step writes CSUM by its work in CSUM_RUN and BUILD_RUN or by its end in RSP_CSUM, and no other
step writes it. -/
theorem csumChangesOnlyAtItsThreePoints : Obligations.CsumChangesOnlyAtItsThreePoints := by
  intro s t hr h hne
  obtain ⟨hc, hb, i, u, hw, hend⟩ | ⟨-, -, hstart⟩ | ⟨-, hsame, -⟩ := step_changes hr h
  · refine ⟨hc, hb, ?_⟩
    obtain hu | hlatch := hend.csum_eq
    · obtain hs | hpoint := hw.csum
      · exact absurd (hu.trans hs) hne
      · rw [← hu] at hpoint
        exact hpoint.imp_right .inl
    · exact .inr (.inr hlatch)
  · exact absurd hstart.csum hne
  · exact absurd hsame hne

/-- Settles O57: STATUS changes by the finish of a block step or by a Start; `seen` by the work of a scanning state, by
an entry that runs CsumInit, or by a Start. -/
theorem flagsChangeOnlyByStartFinishAndReset : Obligations.FlagsChangeOnlyByStartFinishAndReset := by
  intro s t hr h
  obtain ⟨hc, hb, i, hstep⟩ | ⟨hb, hop, hstart⟩ | ⟨hstatus, -, hseen⟩ := step_changes hr h
  · refine ⟨fun hne => .inl ⟨hc, hb, hstep.status_or_finished.resolve_left hne⟩, fun hne => .inl ⟨hc, hb, ?_⟩⟩
    obtain ⟨u, hw, hend⟩ := hstep
    obtain hu | hinit := hend.seen_eq
    · exact .inl (hw.seen.resolve_left fun hs => hne (hu.trans hs))
    · rw [hw.fsm] at hinit
      exact .inr hinit
  · exact ⟨fun _ => .inr ⟨hb, hop⟩, fun hne => .inr ⟨hb, hstart.seen.resolve_left hne, hop⟩⟩
  · exact ⟨fun hne => absurd hstatus hne, fun hne => absurd hseen hne⟩

end Sys2Proof.Machine
end

section
/-!
PROOFS. The moves of the host and of the transport (20_memory.md sections 2 and 4), and the discard on an empty RXQ.

`step_hostWrite` says that a step whose move is a host write is `hostWrite` with the move taken off the agenda; what
`hostWrite` and `hostRead` answer at each address of Table 20-1 follows as one lemma per kind of address.
-/
namespace Sys2Proof.Machine

variable {s : State}

/-! ## A host write, by address (20_memory.md R54, R55) -/

theorem step_hostWrite {a : HostAddr} {v : Byte} {rest : List Move}
    (ha : s.agenda = .host (.access (.write a v)) :: rest) : step s = hostWrite a v { s with agenda := rest } :=
  step_cons ha

theorem hostWrite_busy (hb : s.busy = true) (a : HostAddr) (v : Byte) : hostWrite a v s = .next s := by
  simp [hostWrite, hb]

theorem hostWrite_idle (hb : s.busy = false) (a : HostAddr) (v : Byte) : hostWrite a v s = hostWriteIdle a v s := by
  simp [hostWrite, hb]

theorem startCode_ok {v : Byte} {i : Instr} (hd : decodeOp v = .ok i) (s : State) : startCode v s = exec i s := by
  simp [startCode, hd]

theorem startCode_error {v : Byte} {e : DecodeError} (hd : decodeOp v = .error e) (s : State) :
    startCode v s = .next (startReserved s) := by
  simp [startCode, hd]

/-- A write of a defined code to OP stores the code and starts its operation. -/
theorem hostWrite_op {v : Byte} {i : Instr} (hb : s.busy = false) (hd : decodeOp v = .ok i) :
    hostWrite 0x000 v s = exec i { s with op := v } := by
  rw [hostWrite_idle hb]
  exact startCode_ok hd _

/-- Every row of Table 30-1 has a code below 0x09, so the codes from 0x09 on are reserved (30_encoding.md R82). -/
theorem decodeOp_reserved {v : Byte} (hv : 9 ≤ v.toNat) : decodeOp v = .error (.reservedCode v) := by
  have rows : ∀ r ∈ opcodeTable, r.mask = BitVec.allOnes 8 ∧ r.pattern.toNat < 9 := by decide
  have none_selects : opcodeTable.find? (fun r => r.selects v) = none := by
    refine List.find?_eq_none.2 fun r hr hsel => ?_
    obtain ⟨hmask, hpattern⟩ := rows r hr
    rw [OpcodeRow.selects, hmask, BitVec.and_allOnes, beq_iff_eq] at hsel
    rw [← hsel] at hpattern
    omega
  simp [decodeOp, none_selects]

/-- A write to an address that is neither OP nor an operand register is a write to TXBUF or none at all. -/
theorem hostWriteIdle_other {a : HostAddr} (hop : a ≠ 0x000) (hcmd : a ≠ 0x002) (hlen : a ≠ 0x003) (hexp : a ≠ 0x004)
    (v : Byte) (s : State) :
    hostWriteIdle a v s = .next (if isTxbufAddr a.toNat then storeAt a.toNat v s else s) := by
  rw [hostWriteIdle, if_neg hop, if_neg hcmd, if_neg hlen, if_neg hexp]
  split <;> rfl

theorem hostWriteIdle_txbuf {a : HostAddr} (hlo : 0x100 ≤ a.toNat) (hhi : a.toNat ≤ 0x1FE) (v : Byte) (s : State) :
    hostWriteIdle a v s = .next (storeAt a.toNat v s) := by
  have ne {x : HostAddr} (hx : x.toNat < 0x100) : a ≠ x := by rintro rfl; omega
  rw [hostWriteIdle_other (ne (by decide)) (ne (by decide)) (ne (by decide)) (ne (by decide)),
    if_pos ((isTxbufAddr_iff _).2 ⟨hlo, hhi⟩)]

/-- Settles O8: the move taken off the agenda is a write to OP or a clock, and either is `exec` of the operation that
the code in OP decodes to. -/
theorem stepRunsTheDecodedOperation : Obligations.StepRunsTheDecodedOperation := by
  refine ⟨fun s v i rest hb ha hd => ?_, fun s i rest hb ha hd => ?_, fun s i hb ha hd => ?_, fun s v i hd => ?_⟩
  · rw [step_hostWrite ha, hostWrite_op (s := { s with agenda := rest }) hb hd]
  · rw [step_cons ha]
    exact clockTick_busy (s := { s with agenda := rest }) hb hd
  · rw [step_nil ha, clockTick_busy hb hd]
  · have hv : tableByte 8 v.toNat 0 = v := by simp [tableByte, Nat.mod_eq_of_lt v.isLt]
    have ha : (s.withFetchWord 8 v.toNat).agenda = .host (.access (.write 0x000 v)) :: s.agenda := by
      rw [State.withFetchWord, hv]; rfl
    rw [step_hostWrite ha]
    exact hostWrite_op rfl hd

/-- Settles O10: one lemma of `hostWriteIdle` for each kind of address. -/
theorem hostWriteWhileIdle : Obligations.HostWriteWhileIdle := by
  rintro s u a v rest hb ha rfl
  rw [step_hostWrite ha, hostWrite_idle (s := { s with agenda := rest }) hb]
  refine ⟨?_, ?_, ?_, ?_, ?_, fun ⟨hlo, hhi⟩ => ?_, fun hother => ?_⟩
  · rintro rfl i hd
    exact startCode_ok hd _
  · rintro rfl hv
    exact startCode_error (decodeOp_reserved hv) _
  · rintro rfl; rfl
  · rintro rfl; rfl
  · rintro rfl; rfl
  · exact ⟨_, hostWriteIdle_txbuf hlo hhi v _, byteAt_of_memWrite rfl rfl⟩
  · simp only [not_or] at hother
    obtain ⟨hop, hcmd, hlen, hexp, htx⟩ := hother
    rw [hostWriteIdle_other hop hcmd hlen hexp, if_neg (mt (isTxbufAddr_iff _).1 htx)]

/-! ## A host read, by address (20_memory.md R53, Table 20-1) -/

/-- The registers end below 0x009. -/
theorem registerAt_eq_none {a : HostAddr} (ha : 9 ≤ a.toNat) (s : State) : registerAt s a = none := by
  have ne {x : HostAddr} (hx : x.toNat < 9) : a ≠ x := by rintro rfl; omega
  simp [registerAt, ne]

theorem hostRead_buffer {a : HostAddr} (ha : isBufferAddr a.toNat = true) (s : State) :
    hostRead s a = byteAt s a.toNat := by
  have hge : 9 ≤ a.toNat := by rw [isBufferAddr_iff] at ha; omega
  simp [hostRead, registerAt_eq_none hge, ha]

theorem hostRead_reserved {a : HostAddr} (hge : 9 ≤ a.toNat) (ha : ¬ isBufferAddr a.toNat = true) (s : State) :
    hostRead s a = 0x00 := by
  simp [hostRead, registerAt_eq_none hge, ha]

/-- Settles O12: the nine registers by their addresses, and above them a buffer byte or a reserved address. -/
theorem hostReadReturnsTheMappedValue : Obligations.HostReadReturnsTheMappedValue := by
  intro s a rest ha
  have buffer (h : (0x100 ≤ a.toNat ∧ a.toNat ≤ 0x1FE) ∨ (0x200 ≤ a.toNat ∧ a.toNat ≤ 0x2FE)
      ∨ (0x400 ≤ a.toNat ∧ a.toNat ≤ 0x505)) : hostRead s a = byteAt s a.toNat :=
    hostRead_buffer ((isBufferAddr_iff _).2 h) s
  have reserved (hge : 9 ≤ a.toNat) (h : ¬((0x100 ≤ a.toNat ∧ a.toNat ≤ 0x1FE)
      ∨ (0x200 ≤ a.toNat ∧ a.toNat ≤ 0x2FE) ∨ (0x400 ≤ a.toNat ∧ a.toNat ≤ 0x505))) : hostRead s a = 0x00 :=
    hostRead_reserved hge (mt (isBufferAddr_iff _).1 h) s
  refine ⟨hostRead s a, step_cons ha, ?_, ?_, ?_, ?_, ?_, ?_, ?_, ?_, ?_, ?_, ?_, ?_, ?_, ?_, ?_, ?_⟩
  iterate 9 · rintro rfl; rfl
  · exact fun _ => reserved (by omega) (by omega)
  · exact fun h => buffer (.inl h)
  · exact fun _ => reserved (by omega) (by omega)
  · exact fun h => buffer (.inr (.inl h))
  · exact fun _ => reserved (by omega) (by omega)
  · exact fun h => buffer (.inr (.inr h))
  · exact fun _ => reserved (by omega) (by omega)

/-! ## The transport (20_memory.md R60, R61, R63) -/

theorem popQueue_eq_tail (q : List Byte) : popQueue q = q.tail := by cases q <;> rfl

/-- Settles O59: each of the four moves is one update of the transport's own field. -/
theorem transportMovesTouchTheTransportAlone : Obligations.TransportMovesTouchTheTransportAlone := by
  refine fun s rest => ⟨fun _ ha => step_cons ha, fun _ ha => step_cons ha, fun _ ha => step_cons ha, fun ha => ?_⟩
  rw [step_cons ha, ← popQueue_eq_tail]
  rfl

/-- Settles O27: DRAIN_DISCARD pops, and RxPop of an empty RXQ moves only the counter of free bytes. -/
theorem discardOnAnEmptyQueuePopsNothing : Obligations.DiscardOnAnEmptyQueuePopsNothing := by
  intro s i hb hf hp hk hq
  calc exec i s
    _ = stateRule i s := exec_busy hb (hf ▸ hp)
    _ = drainDiscardStep i s := by rw [stateRule, hf]
    _ = .next { rxPop s with k := s.k - 1 } := if_neg hk
    _ = .next { s with k := s.k - 1, rxDraws := s.rxDraws + 1 } := by rw [rxPop_nil hq]

end Sys2Proof.Machine
end

section
/-!
PROOFS. What a step does to the operands, the buffers and the transport's two streams (20_memory.md R55, R64, R68).

A block step has one of five effects on them (`BlockEffect`): none, one pop, one push, a byte of FRAMEBUF, or one pop
with a byte of RXBUF. `stateRule_effect` says so of every state rule, and each of the three statements is read off the
five cases. Every other step but reset and a host write leaves operands and buffers as they are (`step_writers`).
-/
namespace Sys2Proof.Machine

variable {i : Instr} {s t u : State}

/-! ## Quiet updates -/

/-- The operand registers: they hold what the host wrote last. -/
structure Operands where
  op : Byte
  cmd : Byte
  len : Byte
  expCmd : Byte

def operands (s : State) : Operands := ⟨s.op, s.cmd, s.len, s.expCmd⟩

/-- From `u` to `t` no operand, no buffer byte and no byte stream changes. -/
structure Quiet (u t : State) : Prop where
  operands : operands t = operands u
  byteAt : ∀ a, byteAt t a = byteAt u a
  rxq : t.rxq = u.rxq
  txLog : t.txLog = u.txLog

theorem Quiet.refl (s : State) : Quiet s s := ⟨rfl, fun _ => rfl, rfl, rfl⟩

theorem Quiet.trans (hu : Quiet s u) (ht : Quiet u t) : Quiet s t :=
  ⟨ht.operands.trans hu.operands, fun a => (ht.byteAt a).trans (hu.byteAt a), ht.rxq.trans hu.rxq,
    ht.txLog.trans hu.txLog⟩

/-- The registers and counters that `Quiet` does not speak of may take any value. -/
theorem Quiet.setRegs (s : State) (csum acc : Byte) (seen : Bool) (idx : FrameIdx) (poll : PollCount) (k rxDraws : Nat) :
    Quiet s { s with csum, acc, seen, idx, poll, k, rxDraws } :=
  ⟨rfl, fun _ => rfl, rfl, rfl⟩

theorem quiet_enter (st : FsmState) (s : State) : Quiet s (enter st s) := ⟨rfl, fun _ => rfl, rfl, rfl⟩

theorem quiet_finish (code : ErrCode) (s : State) : Quiet s (finish code s) := ⟨rfl, fun _ => rfl, rfl, rfl⟩

theorem quiet_csumStep (b : Byte) (s : State) : Quiet s (csumStep b s) := ⟨rfl, fun _ => rfl, rfl, rfl⟩

theorem quiet_startOp (phases : List FsmState) (clears : Bool) (s : State) : Quiet s (startOp phases clears s) := by
  cases phases <;> exact ⟨rfl, fun _ => rfl, rfl, rfl⟩

theorem quiet_advance (h : advance i s = .next t) : Quiet s t := by
  obtain ⟨-, rfl⟩ | ⟨st, -, -, rfl⟩ := advance_next h
  · exact quiet_finish .none s
  · exact quiet_enter st s

theorem quiet_emptySample (code : ErrCode) (s : State) : Quiet s (emptySample code s) := by
  have counted : Quiet s { s with poll := s.poll + 1 } := .setRegs ..
  rw [emptySample_eq]
  split
  · exact counted.trans (quiet_finish code _)
  · exact counted

/-! ## The effect of a block step -/

/-- The five effects of a block step on operands, buffers and byte streams. -/
inductive BlockEffect (s t : State) : Prop where
  | quiet (h : Quiet s t)
  | pops (b : Byte) (rest : List Byte) (hq : s.rxq = b :: rest) (h : Quiet { s with rxq := rest } t)
  | pushes (b : Byte) (h : Quiet (txPush b s) t)
  | writesFrame (b : Byte) (hf : s.fsm = .buildRun) (hi : s.idx.toNat < 262)
      (h : Quiet (storeAt (0x400 + s.idx.toNat) b s) t)
  | takesPayload (b : Byte) (rest : List Byte) (hf : s.fsm = .rspPay) (hi : s.idx.toNat < 255) (hq : s.rxq = b :: rest)
      (h : Quiet (storeAt (0x200 + s.idx.toNat) b { s with rxq := rest }) t)

/-- An await-and-verify whose continuation is quiet pops its byte on a match and is quiet otherwise. -/
theorem awaitVerify_effect {v : Byte} {e : ErrCode} {k : State → Res} (hk : ∀ u t, k u = .next t → Quiet u t)
    (h : awaitVerify v e k s = .next t) : BlockEffect s t := by
  obtain ⟨-, h'⟩ | ⟨rest, hq, h'⟩ | ⟨b, rest, -, -, h'⟩ := awaitVerify_cases (v := v) (e := e) (k := k) (s := s)
    <;> rw [h'] at h
  · exact .quiet (Host.Outcome.next.inj h ▸ quiet_emptySample .timeout s)
  · exact .pops v rest hq (hk _ t h)
  · exact .quiet (Host.Outcome.next.inj h ▸ ⟨rfl, fun _ => rfl, rfl, rfl⟩)

/-- A continuation that enters a state after a quiet update is quiet. -/
theorem quiet_next_enter {st : FsmState} {upd : State → State} (hupd : ∀ u, Quiet u (upd u)) (u t : State)
    (h : Host.Outcome.next (enter st (upd u)) = (.next t : Res)) : Quiet u t :=
  Host.Outcome.next.inj h ▸ (hupd u).trans (quiet_enter st _)

theorem csumRunStep_effect (h : csumRunStep i s = .next t) : BlockEffect s t := by
  obtain ⟨-, rfl⟩ | ⟨-, h⟩ := csumRunStep_next h
  · exact .quiet ((quiet_csumStep _ s).trans (.setRegs ..))
  · have latched : Quiet s { s with csum := s.acc } := .setRegs ..
    exact .quiet (latched.trans (quiet_advance h))

theorem buildRunStep_effect (hf : s.fsm = .buildRun) (h : buildRunStep i s = .next t) : BlockEffect s t := by
  obtain ⟨b, u, -, hu, hend⟩ := buildRunStep_next h
  have hlen := s.len.isLt
  have stored : Quiet (storeAt (0x400 + s.idx.toNat) b s) u := by
    obtain ⟨csum, acc, seen, hregs⟩ := buildRegs_eq s.idx.toNat b s
    rw [hu, hregs]
    exact .setRegs ..
  obtain ⟨hi, h⟩ | ⟨hi, rfl⟩ := hend
  · exact .writesFrame b hf (by omega) (stored.trans (quiet_advance h))
  · exact .writesFrame b hf (by omega) (stored.trans (.setRegs ..))

theorem txSendStep_effect (h : txSendStep i s = .next t) : BlockEffect s t := by
  obtain ⟨-, rfl⟩ | ⟨-, -, h⟩ | ⟨-, -, rfl⟩ := txSendStep_next h
  · exact .quiet (.refl t)
  · exact .pushes _ (quiet_advance h)
  · exact .pushes _ (.setRegs ..)

theorem drainFlushStep_effect (h : drainFlushStep s = .next t) : BlockEffect s t := by
  obtain ⟨-, rfl⟩ | ⟨-, rfl⟩ := drainFlushStep_next h
  · exact .quiet (.refl t)
  · exact .quiet ⟨rfl, fun _ => rfl, rfl, rfl⟩

theorem drainDiscardStep_effect (h : drainDiscardStep i s = .next t) : BlockEffect s t := by
  obtain ⟨-, h⟩ | ⟨-, rfl⟩ := drainDiscardStep_next h
  · exact .quiet (quiet_advance h)
  · cases hq : s.rxq with
    | nil => rw [rxPop_nil hq]; exact .quiet (.setRegs ..)
    | cons b rest => rw [rxPop_cons hq]; exact .pops b rest hq (.setRegs ..)

theorem rspLenStep_effect (h : rspLenStep s = .next t) : BlockEffect s t := by
  obtain ⟨-, h'⟩ | ⟨b, rest, hq, h'⟩ := awaitTake_cases (e := .timeout) (s := s) <;> rw [rspLenStep, h'] at h
  · exact .quiet (Host.Outcome.next.inj h ▸ quiet_emptySample .timeout s)
  · exact .pops b rest hq (Host.Outcome.next.inj h ▸ ⟨rfl, fun _ => rfl, rfl, rfl⟩)

theorem rspPayStep_effect (hf : s.fsm = .rspPay) (h : rspPayStep s = .next t) : BlockEffect s t := by
  obtain ⟨-, h'⟩ | ⟨b, rest, hq, h'⟩ := awaitTake_cases (e := .incomplete) (s := s) <;> rw [rspPayStep, h'] at h
  · exact .quiet (Host.Outcome.next.inj h ▸ quiet_emptySample .incomplete s)
  · split at h
    · cases h
    · next u hu =>
      obtain ⟨hi, rfl⟩ := bufWrite_eq_some hu
      refine .takesPayload b rest hf hi hq ?_
      split at h <;> rw [← Host.Outcome.next.inj h]
      · exact (quiet_csumStep b _).trans (quiet_enter .rspCsum _)
      · exact (quiet_csumStep b _).trans (.setRegs ..)

/-- Every state rule that answers has one of the five effects. -/
theorem stateRule_effect (h : stateRule i s = .next t) : BlockEffect s t := by
  cases hf : s.fsm <;> simp only [stateRule, hf] at h
  case idle => exact .quiet (Host.Outcome.next.inj h ▸ .refl s)
  case csumRun => exact csumRunStep_effect h
  case buildRun => exact buildRunStep_effect hf h
  case txSend => exact txSendStep_effect h
  case drainFlush => exact drainFlushStep_effect h
  case drainDiscard => exact drainDiscardStep_effect h
  case ack0 | rspSof0 | rspSof1 | rspCsum | rspEof0 => exact awaitVerify_effect (quiet_next_enter .refl) h
  case ack1 | rspEof1 => exact awaitVerify_effect (fun _ _ => quiet_advance) h
  case rspCmdh | rspCmdl => exact awaitVerify_effect (quiet_next_enter fun u => quiet_csumStep _ u) h
  case rspLen => exact rspLenStep_effect h
  case rspPay => exact rspPayStep_effect hf h

theorem clockTick_effect (h : clockTick s = .next t) : BlockEffect s t := by
  obtain ⟨-, rfl⟩ | ⟨i, -, -, -, h⟩ := clockTick_next h
  · exact .quiet (.refl t)
  · exact stateRule_effect h

namespace BlockEffect

theorem operands_eq (he : BlockEffect s t) : operands t = operands s := by
  cases he with
  | quiet h | pops _ _ _ h | pushes _ h | writesFrame _ _ _ h | takesPayload _ _ _ _ _ h => exact h.operands

/-- A block step writes a buffer byte in RSP_PAY and BUILD_RUN alone, at `idx`. -/
theorem byteAt_or_writer (he : BlockEffect s t) (a : Nat) :
    byteAt t a = byteAt s a
      ∨ (s.fsm = .rspPay ∧ a = 0x200 + s.idx.toNat ∧ a ≤ 0x2FE)
      ∨ (s.fsm = .buildRun ∧ a = 0x400 + s.idx.toNat ∧ a ≤ 0x505) := by
  cases he with
  | quiet h | pops _ _ _ h | pushes _ h => exact .inl (h.byteAt a)
  | writesFrame b hf hi h =>
    rw [h.byteAt, byteAt_storeAt]
    split
    · next ha => exact .inr (.inr ⟨hf, ha, by omega⟩)
    · exact .inl rfl
  | takesPayload b rest hf hi _ h =>
    rw [h.byteAt, byteAt_storeAt]
    split
    · next ha => exact .inr (.inl ⟨hf, ha, by omega⟩)
    · exact .inl rfl

end BlockEffect

/-- Settles O54: a clock has one of the five effects, and each moves at most one byte. -/
theorem oneTransportTransferPerBlockStep : Obligations.OneTransportTransferPerBlockStep := by
  intro s t ha h
  have he : ∃ rest, BlockEffect { s with agenda := rest } t := by
    obtain ha | ⟨rest, ha⟩ := ha
    · rw [step_nil ha] at h
      exact ⟨s.agenda, clockTick_effect h⟩
    · rw [step_cons ha] at h
      exact ⟨rest, clockTick_effect h⟩
  obtain ⟨rest, he⟩ := he
  cases he with
  | quiet h | writesFrame _ _ _ h => exact .inl ⟨h.txLog, .inl h.rxq⟩
  | pops b rest hq h | takesPayload b rest _ _ hq h => exact .inl ⟨h.txLog, .inr ⟨b, by rw [h.rxq]; exact hq⟩⟩
  | pushes b h => exact .inr ⟨h.rxq, b, h.txLog⟩

/-! ## Every step but reset -/

/-- A step other than reset is a block step, a host write, or leaves the operands and buffers as they are. -/
theorem step_writers (hr : s.agenda.head? ≠ some .reset) (h : step s = .next t) :
    (isClock s ∧ s.busy = true ∧ BlockEffect { s with agenda := s.agenda.tail } t)
      ∨ (∃ a v rest, s.agenda = .host (.access (.write a v)) :: rest ∧ hostWrite a v { s with agenda := rest } = .next t)
      ∨ (operands t = operands s ∧ ∀ a, byteAt t a = byteAt s a) := by
  obtain ⟨u, rfl, ⟨hc, h⟩ | ⟨a, v, ha, h⟩ | ⟨a, -, rfl⟩ | ⟨-, rfl⟩ | ⟨bs, -, rfl⟩ | ⟨b, -, rfl⟩ | ⟨b, -, rfl⟩
    | ⟨-, rfl⟩ | ⟨hreset, -⟩⟩ := step_next h
  case inl =>
    obtain ⟨-, rfl⟩ | ⟨i, hb, -, -, h⟩ := clockTick_next h
    · exact .inr (.inr ⟨rfl, fun _ => rfl⟩)
    · exact .inl ⟨hc, hb, stateRule_effect h⟩
  case inr.inl => exact .inr (.inl ⟨a, v, s.agenda.tail, List.eq_cons_of_mem_head? ha, h⟩)
  case inr.inr.inr.inr.inr.inr.inr.inr => exact absurd hreset hr
  all_goals exact .inr (.inr ⟨rfl, fun _ => rfl⟩)

/-- A host write changes no buffer byte but the one of TXBUF that it names, and that while BUSY = 0. -/
theorem hostWrite_byteAt {a : HostAddr} {v : Byte} (h : hostWrite a v s = .next t) (x : Nat) :
    byteAt t x = byteAt s x ∨ (s.busy = false ∧ 0x100 ≤ a.toNat ∧ a.toNat ≤ 0x1FE ∧ a.toNat = x) := by
  obtain ⟨-, rfl⟩ | ⟨-, -, i, -, rfl⟩ | ⟨-, -, -, rfl⟩ | ⟨-, -, rfl⟩ | ⟨-, -, rfl⟩ | ⟨-, -, rfl⟩
    | ⟨hb, hlo, hhi, rfl⟩ | ⟨-, rfl⟩ := hostWrite_next h
  case inr.inl => exact .inl ((quiet_startOp _ _ { s with op := v }).byteAt x)
  case inr.inr.inr.inr.inr.inr.inl =>
    rw [byteAt_storeAt]
    split
    · next hx => exact .inr ⟨hb, hlo, hhi, hx.symm⟩
    · exact .inl rfl
  all_goals exact .inl rfl

/-- Settles O11: `hostWrite` ignores every write while BUSY = 1; what is left are block steps, which keep the operands
and write outside TXBUF, and moves that touch neither. -/
theorem writesAreIgnoredAndOperandsHeldWhileBusy : Obligations.WritesAreIgnoredAndOperandsHeldWhileBusy := by
  have ignored (s : State) (a : HostAddr) (v : Byte) (rest : List Move) (hb : s.busy = true)
      (ha : s.agenda = .host (.access (.write a v)) :: rest) : step s = .next { s with agenda := rest } := by
    rw [step_hostWrite ha, hostWrite_busy (s := { s with agenda := rest }) hb]
  refine ⟨ignored, fun s t hb hr h => ?_⟩
  have held : operands t = operands s ∧ ∀ i, i < 255 → byteAt t (0x100 + i) = byteAt s (0x100 + i) := by
    obtain ⟨-, -, he⟩ | ⟨a, v, rest, ha, -⟩ | ⟨hops, hbytes⟩ := step_writers hr h
    · refine ⟨he.operands_eq, fun i hi => ?_⟩
      obtain hsame | ⟨-, ha, -⟩ | ⟨-, ha, -⟩ := he.byteAt_or_writer (0x100 + i)
      · exact hsame
      all_goals omega
    · obtain rfl := Host.Outcome.next.inj (h.symm.trans (ignored s a v rest hb ha))
      exact ⟨rfl, fun _ _ => rfl⟩
    · exact ⟨hops, fun i _ => hbytes _⟩
  obtain ⟨hops, htx⟩ := held
  exact ⟨congrArg Operands.op hops, congrArg Operands.cmd hops, congrArg Operands.len hops,
    congrArg Operands.expCmd hops, htx⟩

/-- Settles O55: the writers of `hostWrite_byteAt` and `BlockEffect.byteAt_or_writer` are the only ones. -/
theorem bufferBytesChangeOnlyByTheirWriters : Obligations.BufferBytesChangeOnlyByTheirWriters := by
  intro s t a hr h hne
  obtain ⟨hc, hb, he⟩ | ⟨x, v, rest, ha, h⟩ | ⟨-, hbytes⟩ := step_writers hr h
  · obtain ⟨hf, hidx, hle⟩ | ⟨hf, hidx, hle⟩ := (he.byteAt_or_writer a).resolve_left hne
    · exact .inr (.inl ⟨hc, hb, hf, hidx, hle⟩)
    · exact .inr (.inr ⟨hc, hb, hf, hidx, hle⟩)
  · obtain ⟨hb, hlo, hhi, rfl⟩ := (hostWrite_byteAt h a).resolve_left hne
    exact .inl ⟨hb, hlo, hhi, x, v, rest, ha, rfl⟩
  · exact absurd (hbytes a) hne

end Sys2Proof.Machine
end

section
/-!
PROOFS. The operation codes, the host bus word and the pseudo-instructions (30_encoding.md), and the host program
`csum P` from its first write to the end of its `wait` loop.

`decodeOp_eq_ok_iff` and `decodeBusWord_eq_some_iff` say each that decoder and encoder are inverse. The program `csum P`
is run part by part: the writes of `load` (`run_load`), the write to OP (`hostWrite_csum`), and the passes of `wait`
with a clock each (`run_waitPass_clock`), between which CSUM is in the state `csumAt j`, with `j` bytes scanned.
-/
namespace Sys2Proof.Machine

variable {s t : State}

/-! ## The operation codes (30_encoding.md Table 30-1) -/

/-- A row of Table 30-1 selects by all eight bits, and its pattern is its operation's code. -/
theorem opcodeTable_rows : ∀ r ∈ opcodeTable, r.mask = BitVec.allOnes 8 ∧ r.pattern = opcode r.instr := by decide

/-- Each operation's row is the one its code selects. -/
theorem decodeOp_opcode (i : Instr) : decodeOp (opcode i) = .ok i := by cases i <;> rfl

/-- The decoder of a code inverts the encoder. -/
theorem decodeOp_eq_ok_iff {v : Byte} {i : Instr} : decodeOp v = .ok i ↔ opcode i = v := by
  refine ⟨fun h => ?_, fun h => h ▸ decodeOp_opcode i⟩
  unfold decodeOp at h
  split at h
  · next r hr =>
    obtain ⟨hmask, hpattern⟩ := opcodeTable_rows r (List.mem_of_find?_eq_some hr)
    have hsel : r.selects v = true := List.find?_some (p := fun r : OpcodeRow => r.selects v) hr
    rw [OpcodeRow.selects, beq_iff_eq, hmask, BitVec.and_allOnes, hpattern, Except.ok.inj h] at hsel
    exact hsel.symm
  · cases h

theorem decode_cons {v : Byte} {i : Instr} (h : decodeOp v = .ok i) (rest : List Byte) :
    decode (v :: rest) = .ok (i, rest) := by
  rw [decode, h]

/-- Settles O1: an operation is the one byte of its code, and the decoder of a code inverts the encoder. -/
theorem codesDecodeToTheirOperations : Obligations.CodesDecodeToTheirOperations :=
  ⟨fun i rest _ => decode_cons (decodeOp_opcode i) rest, fun _ _ => decodeOp_eq_ok_iff.1, fun _ => decodeOp_reserved⟩

/-! ## The host bus word (30_encoding.md R93) -/

/-- The bus word of a direction, an address and a value. -/
def busWord (write : Bool) (a : HostAddr) (v : Byte) : BusWord := BitVec.ofBool write ++ a ++ v

theorem encodeBusWord_read (a : HostAddr) : encodeBusWord (.read a) = busWord false a 0 := rfl

theorem encodeBusWord_write (a : HostAddr) (v : Byte) : encodeBusWord (.write a v) = busWord true a v := rfl

theorem busWord_toNat (write : Bool) (a : HostAddr) (v : Byte) :
    (busWord write a v).toNat = write.toNat * 2 ^ 19 + a.toNat * 2 ^ 8 + v.toNat := by
  rw [busWord, BitVec.toNat_append, BitVec.toNat_append, BitVec.toNat_ofBool, ← Nat.shiftLeft_add_eq_or_of_lt v.isLt,
    ← Nat.shiftLeft_add_eq_or_of_lt a.isLt, Nat.shiftLeft_eq, Nat.shiftLeft_eq]
  omega

theorem busWord_read_toNat (a : HostAddr) : (busWord false a 0).toNat = a.toNat * 2 ^ 8 := by
  rw [busWord_toNat, Bool.toNat_false, Nat.zero_mul, Nat.zero_add]
  exact Nat.add_zero _

theorem busWord_direction (write : Bool) (a : HostAddr) (v : Byte) : (busWord write a v).getLsbD 19 = write := by
  rw [busWord, BitVec.getLsbD_append, BitVec.getLsbD_append]
  simp

theorem busWord_address (write : Bool) (a : HostAddr) (v : Byte) : (busWord write a v).extractLsb' 8 11 = a := by
  rw [busWord, BitVec.extractLsb'_append_eq_of_le (Nat.le_refl 8)]
  exact BitVec.extractLsb'_append_eq_right

theorem busWord_value (write : Bool) (a : HostAddr) (v : Byte) : (busWord write a v).extractLsb' 0 8 = v :=
  BitVec.extractLsb'_append_eq_right

/-- Every word is the bus word of its three fields. -/
theorem busWord_of_fields (w : BusWord) : busWord (w.getLsbD 19) (w.extractLsb' 8 11) (w.extractLsb' 0 8) = w := by
  have hw := w.isLt
  apply BitVec.eq_of_toNat_eq
  rw [busWord_toNat, BitVec.getLsbD, Nat.toNat_testBit, BitVec.extractLsb'_toNat, BitVec.extractLsb'_toNat,
    Nat.shiftRight_eq_div_pow, Nat.shiftRight_eq_div_pow]
  omega

/-- A bus word is a write, a read, or has value bits under a read's direction bit. -/
theorem busWord_cases (w : BusWord) :
    (∃ a v, w = busWord true a v) ∨ (∃ a, w = busWord false a 0) ∨ ∃ a v, v ≠ 0 ∧ w = busWord false a v := by
  rw [← busWord_of_fields w]
  cases w.getLsbD 19 with
  | true => exact .inl ⟨_, _, rfl⟩
  | false =>
    by_cases hv : w.extractLsb' 0 8 = 0
    · exact .inr (.inl ⟨_, by rw [hv]⟩)
    · exact .inr (.inr ⟨_, _, hv, rfl⟩)

theorem decodeBusWord_write (a : HostAddr) (v : Byte) : decodeBusWord (busWord true a v) = some (.write a v) := by
  simp only [decodeBusWord, busWordOk, busWord_direction, busWord_address, busWord_value]
  rfl

theorem decodeBusWord_read (a : HostAddr) : decodeBusWord (busWord false a 0) = some (.read a) := by
  simp only [decodeBusWord, busWordOk, busWord_direction, busWord_address, busWord_value]
  rfl

theorem decodeBusWord_read_ne_zero {v : Byte} (hv : v ≠ 0) (a : HostAddr) :
    decodeBusWord (busWord false a v) = none := by
  have hbad : (v == 0#8) = false := beq_false_of_ne hv
  simp only [decodeBusWord, busWordOk, busWord_direction, busWord_value, hbad]
  rfl

/-- The decoder of a bus word inverts the encoder. -/
theorem decodeBusWord_eq_some_iff {w : BusWord} {x : HostAccess} :
    decodeBusWord w = some x ↔ encodeBusWord x = w := by
  constructor
  · intro h
    obtain ⟨a, v, rfl⟩ | ⟨a, rfl⟩ | ⟨a, v, hv, rfl⟩ := busWord_cases w
    · rw [← Option.some.inj ((decodeBusWord_write a v).symm.trans h), encodeBusWord_write]
    · rw [← Option.some.inj ((decodeBusWord_read a).symm.trans h), encodeBusWord_read]
    · rw [decodeBusWord_read_ne_zero hv] at h
      cases h
  · rintro rfl
    cases x with
    | read a => exact decodeBusWord_read a
    | write a v => exact decodeBusWord_write a v

/-- The words that are no access, in numbers. -/
theorem decodeBusWord_eq_none_iff (w : BusWord) :
    decodeBusWord w = none ↔ w.toNat < 2 ^ 19 ∧ w.toNat % 2 ^ 8 ≠ 0 := by
  obtain ⟨a, v, rfl⟩ | ⟨a, rfl⟩ | ⟨a, v, hv, rfl⟩ := busWord_cases w
  · refine iff_of_false (by rw [decodeBusWord_write]; exact Option.some_ne_none _) ?_
    rw [busWord_toNat, Bool.toNat_true]
    omega
  · refine iff_of_false (by rw [decodeBusWord_read]; exact Option.some_ne_none _) ?_
    rw [busWord_read_toNat]
    omega
  · refine iff_of_true (decodeBusWord_read_ne_zero hv a) ?_
    have ha := a.isLt
    have hlt := v.isLt
    have hpos : v.toNat ≠ 0 := fun h => hv (BitVec.eq_of_toNat_eq h)
    rw [busWord_toNat, Bool.toNat_false]
    omega

/-- Settles O3: decoder and encoder are inverse, and the words outside are those that `busWord_cases` lists last. -/
theorem busWordsAndAccessesAgree : Obligations.BusWordsAndAccessesAgree := by
  refine ⟨fun _ => decodeBusWord_eq_some_iff.2 rfl, fun _ _ => decodeBusWord_eq_some_iff.1, fun a v => ⟨?_, ?_⟩,
    decodeBusWord_eq_none_iff⟩
  · rw [encodeBusWord_write, busWord_toNat, Bool.toNat_true, Nat.one_mul]
  · rw [encodeBusWord_read, busWord_read_toNat]

/-! ## The pseudo-instructions (30_encoding.md R94, R95) -/

/-- The bytes of a `load`, from index `i` on, by their positions. -/
theorem loadBytes_eq_map (i : Nat) (p : List Byte) :
    loadBytes i p =
      (List.range p.length).map fun j => .access (.write (BitVec.ofNat 11 (0x100 + (i + j))) (p.getD j 0x00)) := by
  induction p generalizing i with
  | nil => rfl
  | cons b rest ih =>
    rw [loadBytes, ih, List.length_cons, List.range_succ_eq_map, List.map_cons, List.map_map]
    congr 1
    refine List.map_congr_left fun j _ => ?_
    simp only [Function.comp_apply, List.getD_cons_succ, Nat.succ_eq_add_one, Nat.add_assoc, Nat.add_comm 1 j]

theorem loadItems_eq_loadAccesses (p : List Byte) : loadItems p = loadAccesses p := by
  rw [loadItems, loadBytes_eq_map, loadAccesses]
  simp only [Nat.zero_add]
  rfl

theorem txbufAddr_toNat {i : Nat} (hi : i < 255) : (txbufAddr i).toNat = 0x100 + i := by
  simp only [txbufAddr, Config.txbufBase, BitVec.toNat_ofNat]
  omega

theorem txbufAddr_ne_op {i : Nat} (hi : i < 255) : txbufAddr i ≠ 0x000 := by
  intro h
  have haddr : 0x100 + i = 0 := (txbufAddr_toNat hi).symm.trans (congrArg BitVec.toNat h)
  omega

/-- A write at another address than OP leaves the block idle, so more writes may follow it. -/
theorem hostProgramOk_write {a : HostAddr} (ha : a ≠ 0x000) (v : Byte) (rest : List HostItem) :
    hostProgramOk false (wr a v :: rest) = hostProgramOk false rest := by
  have hop : (a == Config.addrOp) = false := beq_false_of_ne ha
  have hbusy : startsBusy a v = false := by rw [startsBusy, hop]; rfl
  rw [wr, hostProgramOk, hbusy]
  rfl

theorem hostProgramOk_loadBytes {i : Nat} {p : List Byte} (hp : i + p.length ≤ 255) (rest : List HostItem) :
    hostProgramOk false (loadBytes i p ++ rest) = hostProgramOk false rest := by
  induction p generalizing i with
  | nil => rfl
  | cons b q ih =>
    rw [List.length_cons] at hp
    rw [loadBytes, List.cons_append, hostProgramOk_write (txbufAddr_ne_op (by omega)), ih (by omega)]

theorem hostProgramOk_load {p : List Byte} (hp : payloadOk p = true) (rest : List HostItem) :
    hostProgramOk false (loadItems p ++ rest) = hostProgramOk false rest := by
  have hp : p.length ≤ 255 := of_decide_eq_true hp
  rw [loadItems, List.cons_append, hostProgramOk_write (by decide), hostProgramOk_loadBytes (by omega)]

/-- A start may come last, and a `wait` after it ends the program whether or not the block runs. -/
theorem hostProgramOk_start_wait (i : Instr) : hostProgramOk false [startItem i, .wait] = true := rfl

/-- A well-formed pseudo-instruction writes only while no operation can be running (30_encoding.md R95). -/
theorem hostProgramOk_expand {m : HostMacro} (hm : m.wellFormed = true) : hostProgramOk false (expand m) = true := by
  cases m with
  | start | wait | readResp => rfl
  | load p => rw [expand, ← List.append_nil (loadItems p), hostProgramOk_load hm]; rfl
  | csum p => rw [expand, hostProgramOk_load hm, hostProgramOk_start_wait]
  | build c p | send c p | execCmd c p =>
    rw [expand, List.cons_append, hostProgramOk_write (by decide), hostProgramOk_load hm, hostProgramOk_start_wait]
  | execReq c e p =>
    rw [expand, List.cons_append, List.cons_append, hostProgramOk_write (by decide), hostProgramOk_write (by decide),
      hostProgramOk_load hm, hostProgramOk_start_wait]

/-- Settles O4: each expansion is the spec's list once that of `load` is (`loadItems_eq_loadAccesses`), and no write
follows a Start without a `wait` (`hostProgramOk_expand`). -/
theorem pseudoInstructionsExpandToWellFormedPrograms : Obligations.PseudoInstructionsExpandToWellFormedPrograms := by
  refine ⟨fun _ => rfl, rfl, fun p => ?_, fun c p => ?_, fun c e p => ?_, fun _ => rfl, fun _ => hostProgramOk_expand⟩
  all_goals rw [← loadItems_eq_loadAccesses]
  · exact ⟨rfl, rfl⟩
  · exact ⟨rfl, rfl, rfl⟩
  · rfl

/-! ## The `wait` loop (30_encoding.md R94; log 10, log 11) -/

/-- A pass of the loop records STATUS, and comes again while BUSY = 1. -/
theorem step_wait {rest : List Move} (ha : s.agenda = .host .wait :: rest) :
    step s = .next { s with
      agenda := if s.busy then waitAgenda rest else rest, hostLog := s.hostLog ++ [statusByte s] } := by
  rw [step_cons ha]
  exact congrArg Host.Outcome.next (hostWait_eq { s with agenda := rest })

/-- Settles O60: `step_wait` with BUSY known, and the three shapes of the agenda after the loop. -/
theorem waitPassReadsStatusOnce : Obligations.WaitPassReadsStatusOnce := by
  intro s rest ha
  refine ⟨fun hb => ?_, fun hb hrest => ?_, fun m rest' hb hrest hm => ?_⟩
  · rw [step_wait ha, if_neg (by simp [hb])]
  · rw [step_wait ha, if_pos hb]
    obtain rfl | ⟨x, hx⟩ := hrest
    · rw [waitAgenda_nil]
    · rw [List.eq_cons_of_mem_head? hx, waitAgenda_host]
  · rw [step_wait ha, if_pos hb, hrest, waitAgenda_other hm]

/-- While the block runs and nothing else is to come, a pass of the loop and its clock are one clock that adds a read of
STATUS to the host's log. -/
theorem run_waitPass_clock (hb : s.busy = true) (ha : s.agenda = [.host .wait])
    (hc : clockTick (logRead (statusByte s) s) = .next t) : run 2 s = .next t := by
  have hw : step s = .next { logRead (statusByte s) s with agenda := [.clock, .host .wait] } := by
    rw [step_wait ha, if_pos hb, waitAgenda_nil]; rfl
  refine run_snoc (run_succ hw) ?_
  rw [step_cons rfl, ← ha]
  exact hc

/-- The host's log after reads of these values. -/
def logReads (vs : List Byte) (s : State) : State := { s with hostLog := s.hostLog ++ vs }

theorem logReads_nil (s : State) : logReads [] s = s := by
  rw [logReads, List.append_nil]

theorem logRead_logReads (v : Byte) (vs : List Byte) (s : State) :
    logRead v (logReads vs s) = logReads (vs ++ [v]) s := by
  rw [logRead, logReads, logReads, List.append_assoc]

/-! ## Running `load` -/

/-- Buffer memory after the writes `wr TXBUF+i, p[0]`, `wr TXBUF+i+1, p[1]` and so on. -/
def loadMem (i : Nat) : List Byte → List Host.Cell → List Host.Cell
  | [], m => m
  | b :: rest, m => loadMem (i + 1) rest (memWrite m (0x100 + i) b)

/-- What `load p` leaves: LEN, TXBUF, and the moves after it. -/
def loaded (p : List Byte) (rest : List Move) (s : State) : State :=
  { s with len := BitVec.ofNat 8 p.length, mem := loadMem 0 p s.mem, agenda := rest }

theorem run_loadBytes {i : Nat} {p : List Byte} {rest : List Move} (hp : i + p.length ≤ 255) (hb : s.busy = false)
    (ha : s.agenda = hostMoves (loadBytes i p) ++ rest) :
    run p.length s = .next { s with mem := loadMem i p s.mem, agenda := rest } := by
  induction p generalizing i s with
  | nil => rw [show rest = s.agenda from ha.symm]; rfl
  | cons b q ih =>
    rw [List.length_cons] at hp
    have haddr := txbufAddr_toNat (i := i) (by omega)
    have hstep : step s =
        .next (storeAt (0x100 + i) b { s with agenda := hostMoves (loadBytes (i + 1) q) ++ rest }) := by
      rw [step_hostWrite (rest := hostMoves (loadBytes (i + 1) q) ++ rest) ha, hostWrite_idle (by exact hb),
        hostWriteIdle_txbuf (by omega) (by omega), haddr]
    rw [List.length_cons, run_succ hstep]
    exact ih (by omega) hb rfl

theorem run_load {p : List Byte} {rest : List Move} (hp : p.length ≤ 255) (hb : s.busy = false)
    (ha : s.agenda = hostMoves (loadItems p) ++ rest) : run (p.length + 1) s = .next (loaded p rest s) := by
  have hlen : step s = .next { s with
      len := BitVec.ofNat 8 p.length, agenda := hostMoves (loadBytes 0 p) ++ rest } := by
    rw [step_hostWrite (rest := hostMoves (loadBytes 0 p) ++ rest) ha, hostWrite_idle (by exact hb)]
    rfl
  rw [run_succ hlen]
  exact run_loadBytes (by omega) hb rfl

/-- Loading bytes behind a span of TXBUF appends them to the span. -/
theorem bufSpan_loadMem (i : Nat) (p : List Byte) (s : State) :
    bufSpan .tx (i + p.length) { s with mem := loadMem i p s.mem } = bufSpan .tx i s ++ p := by
  induction p generalizing i s with
  | nil => exact (List.append_nil _).symm
  | cons b q ih =>
    have hkept : bufSpan .tx i (storeAt (0x100 + i) b s) = bufSpan .tx i s :=
      bufSpan_congr fun j hj => by rw [bufBase_tx, byteAt_storeAt, if_neg (by omega)]
    calc bufSpan .tx (i + (q.length + 1)) { s with mem := loadMem (i + 1) q (memWrite s.mem (0x100 + i) b) }
      _ = bufSpan .tx (i + 1 + q.length) { s with mem := loadMem (i + 1) q (memWrite s.mem (0x100 + i) b) } := by
        rw [Nat.add_right_comm i 1]; rfl
      _ = bufSpan .tx (i + 1) (storeAt (0x100 + i) b s) ++ q := ih (i + 1) (storeAt (0x100 + i) b s)
      _ = bufSpan .tx i s ++ b :: q := by
        rw [bufSpan_succ, hkept, bufBase_tx, byteAt_storeAt, if_pos rfl, List.append_assoc, List.singleton_append]

theorem loaded_len_toNat {p : List Byte} (hp : p.length ≤ 255) (rest : List Move) (s : State) :
    (loaded p rest s).len.toNat = p.length :=
  Nat.mod_eq_of_lt (by omega)

theorem payload_loaded {p : List Byte} (hp : p.length ≤ 255) (rest : List Move) (s : State) :
    payload (loaded p rest s) = p := by
  have hspan := bufSpan_loadMem 0 p s
  rw [Nat.zero_add, bufSpan_zero, List.nil_append] at hspan
  rw [payload, payloadLength, loaded_len_toNat hp]
  exact hspan

/-! ## CSUM, clock by clock (41_checksum.md R137, R138) -/

/-- CSUM started in `s`, with the first `j` bytes of the payload scanned. -/
def csumAt (j : Nat) (s : State) : State :=
  { startedIn .csumRun s with
    op := 0x01
    idx := BitVec.ofNat 9 j
    acc := (csumScan 0xAD false (bufSpan .tx j s)).1
    seen := (csumScan 0xAD false (bufSpan .tx j s)).2 }

/-- CSUM started in `s`, at its end. -/
def csumEnd (s : State) : State :=
  finish .none { csumAt s.len.toNat s with csum := checksum (payload s) }

theorem hostWrite_csum (hb : s.busy = false) : hostWrite 0x000 0x01 s = .next (csumAt 0 s) := by
  have hd : decodeOp 0x01 = .ok .csum := decodeOp_opcode .csum
  rw [hostWrite_op hb hd, exec_idle (by exact hb)]
  rfl

theorem csumAt_idx_toNat {j : Nat} (hj : j ≤ s.len.toNat) : (csumAt j s).idx.toNat = j := by
  have hlen := s.len.isLt
  exact Nat.mod_eq_of_lt (by omega)

/-- One more byte scanned is one more CsumStep. -/
theorem csumAt_succ (j : Nat) (s : State) :
    csumAt (j + 1) s = { csumStep (byteAt s (0x100 + j)) (csumAt j s) with idx := (csumAt j s).idx + 1 } := by
  have hidx : BitVec.ofNat 9 (j + 1) = BitVec.ofNat 9 j + 1 := BitVec.ofNat_add j 1
  have hscan := csumScan_snoc (byteAt s (0x100 + j)) (Prod.eta (csumScan 0xAD false (bufSpan .tx j s)))
  rw [← bufBase_tx, ← bufSpan_succ] at hscan
  unfold csumAt
  rw [hidx, ← hscan]
  rfl

theorem clockTick_csumAt (j : Nat) (s : State) : clockTick (csumAt j s) = csumRunStep .csum (csumAt j s) :=
  clockTick_rule rfl (decodeOp_opcode .csum) (List.mem_singleton.2 rfl)

/-- A clock before the last scans one more byte. -/
theorem clockTick_csumAt_lt {j : Nat} (hj : j < s.len.toNat) : clockTick (csumAt j s) = .next (csumAt (j + 1) s) := by
  have hlen := s.len.isLt
  have hidx := csumAt_idx_toNat hj.le
  have hread : bufRead .tx j (csumAt j s) = some (byteAt s (0x100 + j)) :=
    bufRead_of_lt _ (by rw [bufSize_tx]; omega)
  rw [clockTick_csumAt, csumRunStep, hidx, if_pos (by exact hj), hread, csumAt_succ]

/-- The last clock writes the checksum to CSUM and finishes. -/
theorem clockTick_csumAt_len (s : State) : clockTick (csumAt s.len.toNat s) = .next (csumEnd s) := by
  rw [clockTick_csumAt, csumRunStep, csumAt_idx_toNat le_rfl, if_neg (by exact Nat.lt_irrefl _), advance_finish rfl]
  rfl

/-- The scan does not look at the host's log. -/
theorem logRead_csumAt (v : Byte) (j : Nat) (vs : List Byte) (s : State) :
    logRead v (csumAt j (logReads vs s)) = csumAt j (logReads (vs ++ [v]) s) :=
  congrArg (csumAt j) (logRead_logReads v vs s)

theorem statusByte_csumAt (j : Nat) (s : State) : statusByte (csumAt j s) = 0x01 := by
  change statusOf true false false .none = 0x01
  decide

theorem statusByte_csumEnd (s : State) : statusByte (csumEnd s) = 0x06 := by
  rw [csumEnd, statusByte_finish]
  decide

/-- A pass of the loop while CSUM runs reads STATUS 0x01. -/
theorem run_waitPass_csumAt {j : Nat} {vs : List Byte} (ha : s.agenda = [.host .wait])
    (hc : clockTick (csumAt j (logReads (vs ++ [0x01]) s)) = .next t) : run 2 (csumAt j (logReads vs s)) = .next t := by
  refine run_waitPass_clock rfl ha ?_
  rwa [statusByte_csumAt, logRead_csumAt]

/-- The first `j` passes of the loop read STATUS 0x01 and scan `j` bytes. -/
theorem run_wait_csumAt {j : Nat} (hj : j ≤ s.len.toNat) (ha : s.agenda = [.host .wait]) :
    run (2 * j) (csumAt 0 s) = .next (csumAt j (logReads (List.replicate j 0x01) s)) := by
  induction j with
  | zero => rw [List.replicate_zero, logReads_nil]; rfl
  | succ j ih =>
    rw [Nat.mul_succ, run_add (ih (by omega)), List.replicate_succ']
    exact run_waitPass_csumAt ha (clockTick_csumAt_lt hj)

/-- The loop from the start of CSUM to its end: LEN + 1 passes that read 0x01, and a last one that reads 0x06. -/
theorem run_wait_csum (ha : s.agenda = [.host .wait]) :
    run (2 * s.len.toNat + 3) (csumAt 0 s) =
      .next { csumEnd s with
        agenda := [], hostLog := s.hostLog ++ List.replicate (s.len.toNat + 1) 0x01 ++ [0x06] } := by
  have hlast : run 2 (csumAt s.len.toNat (logReads (List.replicate s.len.toNat 0x01) s)) =
      .next (csumEnd (logReads (List.replicate (s.len.toNat + 1) 0x01) s)) := by
    rw [List.replicate_succ']
    exact run_waitPass_csumAt ha (clockTick_csumAt_len _)
  rw [run_add (run_wait_csumAt le_rfl ha), run_snoc hlast (step_wait ha), statusByte_csumEnd]
  rfl

/-- Settles O49: the run of `load`, the write to OP, and the run of the loop. -/
theorem csumHostProgramLeavesTheChecksum : Obligations.CsumHostProgramLeavesTheChecksum := by
  intro s p hb hp ha
  have hload : run (p.length + 1) s = .next (loaded p (hostMoves [startItem .csum, .wait]) s) :=
    run_load hp hb (by rw [ha, expand, hostMoves, List.map_append]; rfl)
  have hstart : run (p.length + 1 + 1) s = .next (csumAt 0 (loaded p [.host .wait] s)) :=
    run_snoc hload ((step_hostWrite rfl).trans (hostWrite_csum hb))
  have hwait := run_wait_csum (s := loaded p [.host .wait] s) rfl
  rw [loaded_len_toNat hp, ← run_add hstart, show p.length + 1 + 1 + (2 * p.length + 3) = 3 * p.length + 5 by omega]
    at hwait
  have hpay : payload (loaded p [.host .wait] s) = p := payload_loaded hp _ s
  exact ⟨_, hwait, rfl, statusByte_csumEnd (loaded p [.host .wait] s), congrArg checksum hpay,
    loaded_len_toNat hp [.host .wait] s, hpay, rfl⟩

end Sys2Proof.Machine
end

section
/-!
PROOFS. Dispatch (40_dispatch.md): Enter, Finish and Start, how IDLE is left, and that every step answers and every
operation ends.

That an operation ends rests on a measure of the running block, `leftToDo`: the phases that can still come, and inside
a phase the bytes to handle and the samples left of the budget. With TxReady and TxEmpty true every block step finishes
the operation or makes the measure smaller: `stateRule_progress` says so of every state rule.
-/
namespace Sys2Proof.Machine

variable {i : Instr} {s t u : State}

/-! ## Enter and Finish (40_dispatch.md R111, R113) -/

/-- Settles O18: the entry actions of the six states that have any, and no action but `state` and `poll` elsewhere. -/
theorem enterPerformsTheEntryActions : Obligations.EnterPerformsTheEntryActions := by
  intro s
  refine ⟨fun st hst => ?_, fun st hst => ?_, rfl, rfl, fun st hst => ?_⟩
  · obtain rfl | rfl := List.mem_pair.1 hst <;> rfl
  · obtain rfl | rfl := List.mem_pair.1 hst <;> rfl
  · cases st with
    | csumRun | buildRun | txSend | rspPay | rspSof0 | rspCsum => exact absurd (by decide) hst
    | _ => rfl

/-- The failing state is recorded for every code but NONE and ILLEGAL_OP. -/
theorem recordsState_of_ne {code : ErrCode} (hn : code ≠ .none) (hill : code ≠ .illegalOp) :
    recordsState code = true := by
  cases code with
  | none => exact absurd rfl hn
  | illegalOp => exact absurd rfl hill
  | _ => rfl

/-- Settles O19: Finish writes FAIL_STATE exactly where `recordsState` holds, with the code of Table 10-4. -/
theorem finishWritesItsRecord : Obligations.FinishWritesItsRecord := by
  intro s code
  refine ⟨?_, ?_, fun hn hill => ?_, fun x hx hf hn hill => ?_⟩
  · rintro rfl; rfl
  · rintro rfl; rfl
  · have hrec := recordsState_of_ne hn hill
    simp only [finish, if_pos hrec, recordsState_ne_none hrec]
  · rw [finish_failState, if_pos (recordsState_of_ne hn hill), hf]
    exact (by decide : ∀ y ∈ _, stateByte y.1 = y.2) x hx

/-! ## Start (40_dispatch.md R110, R115, R116) -/

/-- Settles O14: NOP has no phase, so its Start is the record of a success. -/
theorem nopClearsTheResults : Obligations.NopClearsTheResults := by
  intro s hb
  rw [exec_idle hb]
  rfl

/-- Settles O15: the write to OP of a reserved code is the one of `hostWriteWhileIdle`. -/
theorem reservedCodeFinishesWithIllegalOp : Obligations.ReservedCodeFinishesWithIllegalOp := by
  intro s v rest hb hv ha
  obtain ⟨-, reserved, -⟩ := hostWriteWhileIdle s _ 0x000 v rest hb ha rfl
  have status : statusOf false true false .illegalOp = 0x62 := by decide
  exact ⟨_, reserved rfl hv, rfl, status⟩

/-- Settles O16: Start enters the first phase of the operation's row of Table 30-1, with the entry actions of that
state. -/
theorem startEntersTheFirstPhase : Obligations.StartEntersTheFirstPhase := by
  intro s hb
  have starts (i : Instr) : exec i s = .next (startOp (phasesOf i) (i == .readResp || i == .execReq) s) := exec_idle hb
  exact ⟨starts .csum, starts .build, starts .drain, starts .send, starts .awaitAck, starts .readResp,
    starts .execCmd, starts .execReq⟩

/-! ## IDLE (40_dispatch.md R114) -/

/-- An operation with a phase has one of the codes 0x01 to 0x08. -/
theorem opcode_range_of_ne_nop (hi : i ≠ .nop) : 1 ≤ (opcode i).toNat ∧ (opcode i).toNat ≤ 8 := by
  cases i with
  | nop => exact absurd rfl hi
  | _ => decide

/-- A host write that leaves IDLE is the write to OP of a code from 0x01 to 0x08. -/
theorem hostWrite_leaves_idle {a : HostAddr} {v : Byte} (hf : s.fsm = .idle) (h : hostWrite a v s = .next t)
    (hne : t.fsm ≠ .idle) : a = 0x000 ∧ 1 ≤ v.toNat ∧ v.toNat ≤ 8 := by
  obtain ⟨-, rfl⟩ | ⟨-, ha, i, hd, rfl⟩ | ⟨-, -, -, rfl⟩ | ⟨-, -, rfl⟩ | ⟨-, -, rfl⟩ | ⟨-, -, rfl⟩
    | ⟨-, -, -, rfl⟩ | ⟨-, rfl⟩ := hostWrite_next h
  case inr.inl =>
    have notNop : i ≠ .nop := by rintro rfl; exact hne rfl
    exact ⟨ha, decodeOp_eq_ok_iff.1 hd ▸ opcode_range_of_ne_nop notNop⟩
  case inr.inr.inl => exact absurd rfl hne
  all_goals exact absurd hf hne

/-- Settles O9: while BUSY = 0 a clock changes nothing, and of the other moves a host write alone can leave IDLE. -/
theorem idleIsLeftOnlyByStart : Obligations.IdleIsLeftOnlyByStart := by
  intro s hi hf
  have hb : s.busy = false := Bool.eq_false_iff.2 fun hb => hi.busy_iff.1 hb hf
  refine ⟨hb, fun ha => ?_, fun rest ha => ?_, fun t h hne => ?_⟩
  · rw [step_nil ha, clockTick_idle hb]
  · rw [step_cons ha]
    exact clockTick_idle (s := { s with agenda := rest }) hb
  · obtain ⟨u, rfl, ⟨-, h⟩ | ⟨a, v, ha, h⟩ | ⟨a, -, rfl⟩ | ⟨-, rfl⟩ | ⟨bs, -, rfl⟩ | ⟨b, -, rfl⟩ | ⟨b, -, rfl⟩
      | ⟨-, rfl⟩ | ⟨-, rfl⟩⟩ := step_next h
    case inl =>
      rw [clockTick_idle (s := { s with agenda := s.agenda.tail }) hb] at h
      exact absurd (Host.Outcome.next.inj h ▸ hf) hne
    case inr.inl =>
      obtain ⟨rfl, hrange⟩ := hostWrite_leaves_idle (s := { s with agenda := s.agenda.tail }) hf h hne
      exact ⟨v, s.agenda.tail, List.eq_cons_of_mem_head? ha, hrange⟩
    case inr.inr.inr.inr.inr.inr.inr.inr => exact absurd rfl hne
    all_goals exact absurd hf hne

/-! ## Every step answers (40_dispatch.md R112) -/

/-- Settles O51: the step that answers is the one of `step_answers_inv`, which goes through every move and every state
rule with the control invariant. -/
theorem noStepStopsTheMachine : Obligations.NoStepStopsTheMachine := by
  intro s hi
  obtain ⟨t, h, -⟩ := step_answers_inv hi
  exact ⟨t, h⟩

/-! ## How much is left of a running operation -/

/-- How many phases can still come at most, the present one counted. EXEC_REQ goes through all sixteen but CSUM_RUN, and
its row of Table 30-1 has them in the order in which every other operation meets them too. -/
def phasesLeft (st : FsmState) : Nat := 16 - (phasesOf .execReq ++ [FsmState.csumRun]).idxOf st

theorem phasesLeft_ownTransition {st st' : FsmState} (h : (st, st') ∈ ownTransitions) :
    phasesLeft st' < phasesLeft st := by
  have own : ∀ p ∈ ownTransitions, phasesLeft p.2 < phasesLeft p.1 := by decide
  exact own _ h

theorem phasesLeft_successor {st st' : FsmState} (h : successor st i = some st') :
    phasesLeft st' < phasesLeft st := by
  unfold successor at h
  split at h <;> cases h <;> decide

/-- The bytes that the present phase still has to handle. -/
def bytesLeft (s : State) : Nat :=
  match s.fsm with
  | .csumRun => s.len.toNat - s.idx.toNat
  | .buildRun => s.len.toNat + 6 - s.idx.toNat
  | .txSend => s.len.toNat + 6 - s.idx.toNat
  | .drainDiscard => s.k
  | .rspPay => s.rxLen.toNat - s.idx.toNat
  | _ => 0

/-- The block steps that the present phase can still take, each byte with a budget of samples of its own. -/
def workLeft (s : State) : Nat := bytesLeft s * 1000 + (1000 - s.poll.toNat)

/-- What is left of the running operation: first its phases, then the work of the present one. -/
def leftToDo (s : State) : ℕ ×ₗ ℕ := toLex (phasesLeft s.fsm, workLeft s)

theorem leftToDo_lt_of_phasesLeft (h : phasesLeft t.fsm < phasesLeft s.fsm) : leftToDo t < leftToDo s :=
  Prod.Lex.toLex_lt_toLex.2 (.inl h)

theorem leftToDo_lt_of_workLeft (hf : t.fsm = s.fsm) (h : workLeft t < workLeft s) : leftToDo t < leftToDo s :=
  Prod.Lex.toLex_lt_toLex.2 (.inr ⟨congrArg phasesLeft hf, h⟩)

/-- A byte handled is worth more than any number of samples. -/
theorem workLeft_lt_of_bytesLeft (hpoll : s.poll.toNat < 1000) (h : bytesLeft t < bytesLeft s) :
    workLeft t < workLeft s := by
  unfold workLeft
  omega

/-! ## Progress of a block step -/

/-- From `s` to `u` the block stays in its state, and BUSY, TxReady and TxEmpty are kept. -/
structure SamePhase (s u : State) : Prop where
  busy : u.busy = s.busy
  fsm : u.fsm = s.fsm
  txReady : u.txReady = s.txReady
  txEmpty : u.txEmpty = s.txEmpty

/-- A block step after which the operation has ended or less is left of it. -/
structure Progress (s t : State) : Prop where
  txReady : t.txReady = s.txReady
  txEmpty : t.txEmpty = s.txEmpty
  nearer : (t.busy = false ∧ t.done = true) ∨ (t.busy = s.busy ∧ leftToDo t < leftToDo s)

namespace SamePhase

theorem finish_progress {code : ErrCode} (hu : SamePhase s u) : Progress s (finish code u) :=
  ⟨hu.txReady, hu.txEmpty, .inl ⟨rfl, rfl⟩⟩

theorem enter_progress {st : FsmState} (hu : SamePhase s u) (h : phasesLeft st < phasesLeft s.fsm) :
    Progress s (enter st u) :=
  ⟨hu.txReady, hu.txEmpty, .inr ⟨hu.busy, leftToDo_lt_of_phasesLeft h⟩⟩

theorem advance_progress (hu : SamePhase s u) (h : advance i u = .next t) : Progress s t := by
  obtain ⟨-, rfl⟩ | ⟨st, -, hst, rfl⟩ := advance_next h
  · exact hu.finish_progress
  · exact hu.enter_progress (hu.fsm ▸ phasesLeft_successor hst)

theorem byte_progress (ht : SamePhase s t) (hpoll : s.poll.toNat < 1000) (h : bytesLeft t < bytesLeft s) :
    Progress s t :=
  ⟨ht.txReady, ht.txEmpty, .inr ⟨ht.busy, leftToDo_lt_of_workLeft ht.fsm (workLeft_lt_of_bytesLeft hpoll h)⟩⟩

end SamePhase

/-- An empty sample uses up the budget or ends the operation. -/
theorem emptySample_progress (hpoll : s.poll.toNat < 1000) (code : ErrCode) : Progress s (emptySample code s) := by
  rw [emptySample_eq]
  split
  · exact SamePhase.finish_progress ⟨rfl, rfl, rfl, rfl⟩
  · refine ⟨rfl, rfl, .inr ⟨rfl, leftToDo_lt_of_workLeft rfl ?_⟩⟩
    have counted : (s.poll + 1).toNat = s.poll.toNat + 1 := by
      simp only [BitVec.ofNat_eq_ofNat, BitVec.toNat_add, BitVec.toNat_ofNat]
      omega
    change bytesLeft s * 1000 + (1000 - (s.poll + 1).toNat) < bytesLeft s * 1000 + (1000 - s.poll.toNat)
    omega

theorem awaitVerify_progress {v : Byte} {e : ErrCode} {k : State → Res} (hpoll : s.poll.toNat < 1000)
    (hk : ∀ u, SamePhase s u → k u = .next t → Progress s t) (h : awaitVerify v e k s = .next t) : Progress s t := by
  obtain ⟨-, h'⟩ | ⟨rest, -, h'⟩ | ⟨b, rest, -, -, h'⟩ := awaitVerify_cases (v := v) (e := e) (k := k) (s := s)
    <;> rw [h'] at h
  · exact Host.Outcome.next.inj h ▸ emptySample_progress hpoll .timeout
  · exact hk { s with rxq := rest } ⟨rfl, rfl, rfl, rfl⟩ h
  · have peeked : SamePhase s { s with failByte := b } := ⟨rfl, rfl, rfl, rfl⟩
    exact Host.Outcome.next.inj h ▸ peeked.finish_progress

theorem awaitTake_progress {e : ErrCode} {k : Byte → State → Res} (hpoll : s.poll.toNat < 1000)
    (hk : ∀ b rest, k b { s with rxq := rest } = .next t → Progress s t) (h : awaitTake e k s = .next t) :
    Progress s t := by
  obtain ⟨-, h'⟩ | ⟨b, rest, -, h'⟩ := awaitTake_cases (e := e) (k := k) (s := s) <;> rw [h'] at h
  · exact Host.Outcome.next.inj h ▸ emptySample_progress hpoll e
  · exact hk b rest h

/-- An await state whose match enters the next state. -/
theorem awaitVerify_enter_progress {v : Byte} {e : ErrCode} {st : FsmState} {upd : State → State}
    (hpoll : s.poll.toNat < 1000) (hst : (s.fsm, st) ∈ ownTransitions)
    (hupd : ∀ u, SamePhase s u → SamePhase s (upd u))
    (h : awaitVerify v e (fun u => .next (enter st (upd u))) s = .next t) : Progress s t :=
  awaitVerify_progress (k := fun u => .next (enter st (upd u))) hpoll
    (fun u hu hk => Host.Outcome.next.inj hk ▸ (hupd u hu).enter_progress (phasesLeft_ownTransition hst)) h

/-! ## Every state rule -/

theorem csumRunStep_progress (hpoll : s.poll.toNat < 1000) (hf : s.fsm = .csumRun) (h : csumRunStep i s = .next t) :
    Progress s t := by
  obtain ⟨hlt, rfl⟩ | ⟨-, h⟩ := csumRunStep_next h
  · have hlen := s.len.isLt
    refine SamePhase.byte_progress ⟨rfl, rfl, rfl, rfl⟩ hpoll ?_
    simp only [bytesLeft, csumStep_fsm, hf, csumStep_len, toNat_idx_succ (show s.idx.toNat < 511 by omega)]
    omega
  · exact SamePhase.advance_progress (u := { s with csum := s.acc }) ⟨rfl, rfl, rfl, rfl⟩ h

theorem buildRunStep_progress (hpoll : s.poll.toNat < 1000) (hf : s.fsm = .buildRun)
    (h : buildRunStep i s = .next t) : Progress s t := by
  obtain ⟨b, u, -, hu, hend⟩ := buildRunStep_next h
  obtain ⟨csum, acc, seen, hregs⟩ := buildRegs_eq s.idx.toNat b s
  rw [hregs] at hu
  obtain ⟨-, h⟩ | ⟨hlt, rfl⟩ := hend
  · exact SamePhase.advance_progress (u := u) (hu ▸ ⟨rfl, rfl, rfl, rfl⟩) h
  · have hlen := s.len.isLt
    subst hu
    refine SamePhase.byte_progress ⟨rfl, rfl, rfl, rfl⟩ hpoll ?_
    simp only [bytesLeft, storeAt_fsm, hf, storeAt_len, toNat_idx_succ (show s.idx.toNat < 511 by omega)]
    omega

theorem txSendStep_progress (hi : Inv s) (hpoll : s.poll.toNat < 1000) (hf : s.fsm = .txSend)
    (hready : s.txReady = true) (h : txSendStep i s = .next t) : Progress s t := by
  obtain ⟨hnot, -⟩ | ⟨-, -, h⟩ | ⟨-, hne, rfl⟩ := txSendStep_next h
  · simp [hready] at hnot
  · exact SamePhase.advance_progress (u := txPush _ s) ⟨rfl, rfl, rfl, rfl⟩ h
  · have hle : s.idx.toNat ≤ s.len.toNat + 6 := by simpa only [idxInRange, hf] using hi.idx
    have hlen := s.len.isLt
    refine SamePhase.byte_progress ⟨rfl, rfl, rfl, rfl⟩ hpoll ?_
    simp only [bytesLeft, txPush_fsm, hf, txPush_len, toNat_idx_succ (show s.idx.toNat < 511 by omega)]
    omega

theorem drainFlushStep_progress (hf : s.fsm = .drainFlush) (hempty : s.txEmpty = true)
    (h : drainFlushStep s = .next t) : Progress s t := by
  obtain ⟨hnot, -⟩ | ⟨-, rfl⟩ := drainFlushStep_next h
  · simp [hempty] at hnot
  · have latched : SamePhase s { s with k := s.rxq.length } := ⟨rfl, rfl, rfl, rfl⟩
    exact latched.enter_progress (st := .drainDiscard) (by rw [hf]; decide)

theorem drainDiscardStep_progress (hpoll : s.poll.toNat < 1000) (hf : s.fsm = .drainDiscard)
    (h : drainDiscardStep i s = .next t) : Progress s t := by
  obtain ⟨-, h⟩ | ⟨hk, rfl⟩ := drainDiscardStep_next h
  · exact SamePhase.advance_progress (u := s) ⟨rfl, rfl, rfl, rfl⟩ h
  · refine SamePhase.byte_progress ⟨rfl, rfl, rfl, rfl⟩ hpoll ?_
    simp only [bytesLeft, rxPop_fsm, hf]
    omega

theorem rspLenStep_progress (hpoll : s.poll.toNat < 1000) (hf : s.fsm = .rspLen) (h : rspLenStep s = .next t) :
    Progress s t := by
  refine awaitTake_progress hpoll (fun b rest hk => ?_) h
  rw [← Host.Outcome.next.inj hk]
  exact SamePhase.enter_progress ⟨rfl, rfl, rfl, rfl⟩ (by rw [hf]; split <;> decide)

/-- A byte of payload taken brings a fresh budget, and there is one byte fewer to take (43_reader.md R179). -/
theorem rspPayStep_progress (hi : Inv s) (hpoll : s.poll.toNat < 1000) (hf : s.fsm = .rspPay)
    (h : rspPayStep s = .next t) : Progress s t := by
  refine awaitTake_progress hpoll (fun b rest hk => ?_) h
  split at hk
  · cases hk
  · next u hu =>
    obtain ⟨-, rfl⟩ := bufWrite_eq_some hu
    split at hk <;> rw [← Host.Outcome.next.inj hk]
    · exact SamePhase.enter_progress ⟨rfl, rfl, rfl, rfl⟩ (by rw [hf]; decide)
    · have hlt : s.idx.toNat < s.rxLen.toNat := by simpa only [idxInRange, hf] using hi.idx
      have hlen := s.rxLen.isLt
      refine SamePhase.byte_progress ⟨rfl, rfl, rfl, rfl⟩ hpoll ?_
      simp only [bytesLeft, csumStep_fsm, storeAt_fsm, hf, csumStep_rxLen, storeAt_rxLen,
        toNat_idx_succ (show s.idx.toNat < 511 by omega)]
      omega

/-- With TxReady and TxEmpty true, no block step of a running operation leaves as much to do as there was. -/
theorem stateRule_progress (hi : Inv s) (hb : s.busy = true) (hready : s.txReady = true) (hempty : s.txEmpty = true)
    (h : stateRule i s = .next t) : Progress s t := by
  have hpoll := hi.poll hb
  have scans : ∀ (c : State → Byte) u, SamePhase s u → SamePhase s (csumStep (c u) u) :=
    fun _ _ hu => ⟨hu.busy, hu.fsm, hu.txReady, hu.txEmpty⟩
  cases hf : s.fsm <;> simp only [stateRule, hf] at h
  case idle => exact absurd hf (hi.busy_iff.1 hb)
  case csumRun => exact csumRunStep_progress hpoll hf h
  case buildRun => exact buildRunStep_progress hpoll hf h
  case txSend => exact txSendStep_progress hi hpoll hf hready h
  case drainFlush => exact drainFlushStep_progress hf hempty h
  case drainDiscard => exact drainDiscardStep_progress hpoll hf h
  case ack0 | rspSof0 | rspSof1 | rspCsum | rspEof0 =>
    exact awaitVerify_enter_progress (upd := id) hpoll (by rw [hf]; decide) (fun _ => id) h
  case ack1 | rspEof1 => exact awaitVerify_progress hpoll (fun _ => SamePhase.advance_progress) h
  case rspCmdh => exact awaitVerify_enter_progress hpoll (by rw [hf]; decide) (scans _) h
  case rspCmdl => exact awaitVerify_enter_progress hpoll (by rw [hf]; decide) (scans expectedByte) h
  case rspLen => exact rspLenStep_progress hpoll hf h
  case rspPay => exact rspPayStep_progress hi hpoll hf h

/-! ## Every operation ends (40_dispatch.md R118) -/

/-- A clock of a running operation answers, keeps the control invariant and makes progress. -/
theorem clockTick_answers_progress (hi : Inv s) (hb : s.busy = true) (hready : s.txReady = true)
    (hempty : s.txEmpty = true) : ∃ t, clockTick s = .next t ∧ Inv t ∧ Progress s t := by
  obtain ⟨t, h, hinv⟩ := clockTick_answers_inv hi
  refine ⟨t, h, hinv, ?_⟩
  obtain ⟨hidle, -⟩ | ⟨i, -, -, -, hrule⟩ := clockTick_next h
  · simp [hb] at hidle
  · exact stateRule_progress hi hb hready hempty hrule

/-- A running operation reaches its end, by induction on what is left to do. -/
theorem run_reaches_end (hi : Inv s) (hb : s.busy = true) (ha : s.agenda = []) (hready : s.txReady = true)
    (hempty : s.txEmpty = true) : ∃ n t, run n s = .next t ∧ t.busy = false ∧ t.done = true := by
  induction hm : leftToDo s using WellFoundedLT.induction generalizing s with
  | ind m ih =>
    obtain ⟨u, hclock, hu, hprog⟩ := clockTick_answers_progress hi hb hready hempty
    have hstep : step s = .next u := (step_nil ha).trans hclock
    obtain hend | ⟨hbusy, hlt⟩ := hprog.nearer
    · exact ⟨1, u, run_succ hstep, hend⟩
    · obtain ⟨n, t, hrun, hend⟩ := ih _ (hm ▸ hlt) hu (hbusy.trans hb) ((clockTick_agenda hclock).trans ha)
        (hprog.txReady.trans hready) (hprog.txEmpty.trans hempty) rfl
      exact ⟨n + 1, t, (run_succ hstep).trans hrun, hend⟩

/-- Settles O48: an idle block has ended already, and a running one is the case of `run_reaches_end`. -/
theorem everyOperationEnds : Obligations.EveryOperationEnds := by
  intro s hi ha hready hempty
  cases hb : s.busy with
  | false => exact ⟨0, s, rfl, hb, by simp⟩
  | true => simpa using run_reaches_end hi hb ha hready hempty

end Sys2Proof.Machine
end

section
/-!
PROOFS. The checksum (41_checksum.md): CsumStep, the closed form, the changes that keep it, and the operation CSUM.

A byte put into a sequence adds itself to the checksum, but for a 0x07 beside another 0x07, which adds nothing
(`addedTo`, `checksum_insert`). So the changes of R135 are equations between the bytes added.
-/
namespace Sys2Proof.Machine

variable {s : State}

/-! ## CsumStep (41_checksum.md R132, R133) -/

/-- A 0x07 after the first is skipped. -/
theorem csumAcc_skip (acc : Byte) : csumAcc acc true 0x07 = acc := rfl

/-- Every other byte is added. -/
theorem csumAcc_add {seen : Bool} {b : Byte} (h : ¬(b = 0x07 ∧ seen = true)) (acc : Byte) :
    csumAcc acc seen b = acc + b := by
  have hcounts : csumCounts seen b = true := by
    by_contra hc
    exact h (by simpa [csumCounts] using hc)
  rw [csumAcc, if_pos hcounts, csumAdd_eq_add]

/-- Settles O20: `csumAcc` skips or adds, and a byte sum needs one subtraction of 256 at most. -/
theorem csumStepAddsAllButRepeatedStopBytes : Obligations.CsumStepAddsAllButRepeatedStopBytes := by
  refine fun s b => ⟨?_, fun h => ⟨s.acc + b, ?_, ?_⟩⟩
  · rintro ⟨rfl, hseen⟩
    rw [csumStep, hseen, csumAcc_skip, csumSeen, Bool.true_or, ← hseen]
  · rw [csumStep, csumAcc_add h]
    rfl
  · have hacc := s.acc.isLt
    have hbyte := b.isLt
    rw [BitVec.toNat_add]
    split <;> omega

/-! ## The closed form (41_checksum.md R134) -/

/-- S of R134: the sum of the bytes that are not 0x07. -/
def sumOfOthers (bs : List Byte) : Nat := ((bs.filter fun b => b != 0x07).map BitVec.toNat).sum

theorem sumOfOthers_cons_stop (bs : List Byte) : sumOfOthers (0x07 :: bs) = sumOfOthers bs := rfl

theorem sumOfOthers_cons {b : Byte} (hb : b ≠ 0x07) (bs : List Byte) :
    sumOfOthers (b :: bs) = b.toNat + sumOfOthers bs := by
  rw [sumOfOthers, List.filter_cons_of_pos (by simpa using hb), List.map_cons, List.sum_cons, sumOfOthers]

/-- What the bytes 0x07 of a sequence add: 7 for the first of them, if none has been seen before. -/
def stopSum (seen : Bool) (bs : List Byte) : Nat := 7 * if seen = false ∧ (0x07 : Byte) ∈ bs then 1 else 0

theorem stopSum_of_mem {bs : List Byte} (h : (0x07 : Byte) ∈ bs) : stopSum false bs = 7 := by
  rw [stopSum, if_pos ⟨rfl, h⟩]

theorem stopSum_of_seen (bs : List Byte) : stopSum true bs = 0 := by simp [stopSum]

theorem stopSum_of_not_mem {bs : List Byte} (h : (0x07 : Byte) ∉ bs) : stopSum false bs = 0 := by
  rw [stopSum, if_neg fun hs => h hs.2]

theorem stopSum_congr {p q : List Byte} (h : (0x07 : Byte) ∈ p ↔ (0x07 : Byte) ∈ q) (seen : Bool) :
    stopSum seen p = stopSum seen q := by
  simp only [stopSum, h]

theorem stopSum_cons {b : Byte} (hb : b ≠ 0x07) (seen : Bool) (bs : List Byte) :
    stopSum seen (b :: bs) = stopSum seen bs :=
  stopSum_congr (List.mem_cons.trans (or_iff_right (Ne.symm hb))) seen

/-- The closed form of a scan from any point. -/
theorem csumScan_toNat (acc : Byte) (seen : Bool) (bs : List Byte) :
    (csumScan acc seen bs).1.toNat = (acc.toNat + sumOfOthers bs + stopSum seen bs) % 256 := by
  induction bs generalizing acc seen with
  | nil => simp [sumOfOthers, stopSum, Nat.mod_eq_of_lt acc.isLt]
  | cons b rest ih =>
    change (csumScan (csumAcc acc seen b) (csumSeen seen b) rest).1.toNat = _
    rw [ih]
    by_cases hb : b = 0x07
    · subst hb
      have hseen : csumSeen seen 0x07 = true := Bool.or_true seen
      rw [sumOfOthers_cons_stop, hseen, stopSum_of_seen]
      cases seen with
      | true => rw [csumAcc_skip, stopSum_of_seen]
      | false =>
        rw [csumAcc_add (seen := false) (fun h => Bool.false_ne_true h.2), BitVec.toNat_add,
          stopSum_of_mem List.mem_cons_self]
        change ((acc.toNat + 7) % 256 + sumOfOthers rest + 0) % 256 = _
        omega
    · have hseen : csumSeen seen b = seen := by rw [csumSeen, beq_eq_false_iff_ne.2 hb, Bool.or_false]
      rw [csumAcc_add fun h => hb h.1, hseen, stopSum_cons hb, sumOfOthers_cons hb, BitVec.toNat_add]
      omega

theorem checksum_toNat (bs : List Byte) :
    (checksum bs).toNat = (0xAD + sumOfOthers bs + stopSum false bs) % 256 := csumScan_toNat 0xAD false bs

/-- Settles O21: the closed form of the scan from the seed. -/
theorem checksumHasItsClosedForm : Obligations.ChecksumHasItsClosedForm := by
  intro bs
  rw [checksum_toNat, stopSum]
  simp only [true_and]
  rfl

/-! ## What a change does to the checksum (41_checksum.md R135) -/

/-- The checksum is fixed by the sum modulo 256 and the presence of 0x07. -/
theorem checksum_congr {p q : List Byte} (hsum : sumOfOthers p % 256 = sumOfOthers q % 256)
    (hstop : (0x07 : Byte) ∈ p ↔ (0x07 : Byte) ∈ q) : checksum p = checksum q := by
  apply BitVec.eq_of_toNat_eq
  rw [checksum_toNat, checksum_toNat, stopSum_congr hstop]
  omega

/-- So the order of the bytes does not matter. -/
theorem checksum_perm {p q : List Byte} (h : p.Perm q) : checksum p = checksum q :=
  checksum_congr (congrArg (· % 256) ((h.filter _).map BitVec.toNat).sum_nat) h.mem_iff

/-- What a byte adds to the checksum of the bytes it is put among. -/
def addedTo (rest : List Byte) (b : Byte) : Byte := if b = 0x07 ∧ (0x07 : Byte) ∈ rest then 0x00 else b

theorem addedTo_of_ne {b : Byte} (hb : b ≠ 0x07) (rest : List Byte) : addedTo rest b = b :=
  if_neg fun h => hb h.1

theorem addedTo_stop {rest : List Byte} (h : (0x07 : Byte) ∈ rest) : addedTo rest 0x07 = 0x00 := if_pos ⟨rfl, h⟩

theorem addedTo_of_not_mem {rest : List Byte} (h : (0x07 : Byte) ∉ rest) (b : Byte) : addedTo rest b = b :=
  if_neg fun hs => h hs.2

theorem checksum_cons (b : Byte) (bs : List Byte) : checksum (b :: bs) = checksum bs + addedTo bs b := by
  by_cases hb : b = 0x07
  · subst hb
    by_cases hmem : (0x07 : Byte) ∈ bs
    · have hskip : checksum (0x07 :: bs) = checksum bs :=
        checksum_congr (sumOfOthers_cons_stop bs ▸ rfl) (iff_of_true (List.mem_cons_of_mem _ hmem) hmem)
      rw [addedTo_stop hmem, hskip]
      exact (BitVec.add_zero _).symm
    · apply BitVec.eq_of_toNat_eq
      rw [addedTo_of_not_mem hmem, BitVec.toNat_add, checksum_toNat, checksum_toNat, sumOfOthers_cons_stop,
        stopSum_of_not_mem hmem, stopSum_of_mem List.mem_cons_self]
      change _ = (_ + 7) % 256
      omega
  · apply BitVec.eq_of_toNat_eq
    rw [addedTo_of_ne hb, BitVec.toNat_add, checksum_toNat, checksum_toNat, stopSum_cons hb, sumOfOthers_cons hb]
    omega

/-- A byte put into a sequence adds to the checksum, wherever it is put. -/
theorem checksum_insert (p q : List Byte) (b : Byte) :
    checksum (p ++ b :: q) = checksum (p ++ q) + addedTo (p ++ q) b :=
  (checksum_perm List.perm_middle).trans (checksum_cons b (p ++ q))

/-- Two bytes add the same only where one is a 0x00 and the other a 0x07 that is skipped. -/
theorem addedTo_eq_iff {rest : List Byte} {b b' : Byte} (hne : b ≠ b') :
    addedTo rest b = addedTo rest b' ↔
      ((b = 0x00 ∧ b' = 0x07) ∨ (b = 0x07 ∧ b' = 0x00)) ∧ (0x07 : Byte) ∈ rest := by
  by_cases hmem : (0x07 : Byte) ∈ rest
  · by_cases hb : b = 0x07
    · subst hb
      rw [addedTo_stop hmem, addedTo_of_ne hne.symm]
      grind
    · by_cases hb' : b' = 0x07
      · subst hb'
        rw [addedTo_stop hmem, addedTo_of_ne hb]
        grind
      · rw [addedTo_of_ne hb, addedTo_of_ne hb']
        grind
  · rw [addedTo_of_not_mem hmem, addedTo_of_not_mem hmem]
    exact iff_of_false hne fun h => hmem h.2

/-- Settles O22: the first change is `checksum_congr`, and each other one compares the bytes added. -/
theorem listedChangesKeepTheChecksum : Obligations.ListedChangesKeepTheChecksum := by
  refine ⟨fun p q => checksum_congr, fun p q r a b a' b' ha hb ha' hb' hsum => ?_, fun p q => ?_, fun p q h => ?_,
    fun p q b b' hne => ?_⟩
  · have insert_two (x y : Byte) (hx : x ≠ 0x07) (hy : y ≠ 0x07) :
        checksum (p ++ x :: q ++ y :: r) = checksum (p ++ (q ++ r)) + (x + y) := by
      rw [checksum_insert, List.append_assoc, List.cons_append, checksum_insert, addedTo_of_ne hx, addedTo_of_ne hy,
        BitVec.add_assoc]
    rw [insert_two a b ha hb, insert_two a' b' ha' hb', hsum]
  · rw [checksum_insert, addedTo_of_ne (by decide)]
    exact BitVec.add_zero _
  · rw [checksum_insert, addedTo_stop h]
    exact BitVec.add_zero _
  · rw [checksum_insert, checksum_insert, BitVec.add_right_inj, addedTo_eq_iff hne]

/-! ## The operation CSUM (41_checksum.md R137, R138) -/

/-- Settles O23: the two branches of CSUM_RUN; TXBUF has every byte below LEN. -/
theorem csumRunAddsOneByteOrFinishes : Obligations.CsumRunAddsOneByteOrFinishes := by
  intro s hb hf
  have hlen := s.len.isLt
  have hstep : exec .csum s = csumRunStep .csum s := by
    rw [exec_busy hb (by rw [hf]; exact List.mem_singleton.2 rfl), stateRule, hf]
  rw [hstep, csumRunStep]
  by_cases hlt : s.idx.toNat < s.len.toNat
  · rw [if_pos (by exact hlt), if_pos hlt, bufRead_of_lt s (by rw [bufSize_tx]; omega)]
    rfl
  · rw [if_neg (by exact hlt), if_neg hlt, advance_finish (by rw [hf]; rfl)]
    rfl

theorem step_csumAt (ha : s.agenda = []) (j : Nat) : step (csumAt j s) = clockTick (csumAt j s) := step_nil ha

/-- With an empty agenda CSUM scans one byte a step. -/
theorem run_csumAt {j : Nat} (hj : j ≤ s.len.toNat) (ha : s.agenda = []) :
    run j (csumAt 0 s) = .next (csumAt j s) := by
  induction j with
  | zero => rfl
  | succ j ih => exact run_snoc (ih (by omega)) ((step_csumAt ha j).trans (clockTick_csumAt_lt hj))

/-- Settles O35: LEN steps scan the payload, and one more writes CSUM and finishes. -/
theorem csumOperationLeavesTheChecksum : Obligations.CsumOperationLeavesTheChecksum := by
  intro s hb hop ha
  have hstart : exec .csum s = .next (csumAt 0 s) := by
    rw [exec_idle hb, csumAt, ← hop]
    rfl
  refine ⟨csumAt 0 s, csumEnd s, hstart,
    run_snoc (run_csumAt le_rfl ha) ((step_csumAt ha _).trans (clockTick_csumAt_len s)), fun m w hm hw => ?_, rfl,
    statusByte_csumEnd s, ?_⟩
  · rw [← Host.Outcome.next.inj ((run_csumAt hm ha).symm.trans hw)]
    exact statusByte_csumAt m s
  · rw [csumEnd, csumAt, ← hop]
    rfl

end Sys2Proof.Machine
end

section
/-!
PROOFS. The data invariant (41_checksum.md R136; 42_builder.md R152; 43_reader.md R183): the checksum engine has scanned
the region so far, and FRAMEBUF and RXBUF hold the bytes so far.

A block step ends the operation, or `dataSoFar` holds of the state it leaves. Most entries need nothing of the state they
come from (`freshStates`); the reader's states hand on the scan, one byte longer where they run CsumStep
(`scanned.snoc`); and BUILD_RUN lengthens the frame by the byte of its offset (`Built.succ`) until it is whole.
-/
namespace Sys2Proof.Machine

variable {i : Instr} {s t u : State}

/-! ## What the checksum engine has scanned -/

/-- CsumStep adds a byte to what has been scanned (41_checksum.md R136). -/
theorem scanned.snoc {bs : List Byte} (h : scanned s bs) (b : Byte) : scanned (csumStep b s) (bs ++ [b]) :=
  csumScan_snoc b h

/-- Once a sequence has been scanned, `acc` is its checksum (41_checksum.md R130). -/
theorem scanned.acc_eq {bs : List Byte} (h : scanned s bs) : s.acc = checksum bs := congrArg Prod.fst h

/-- A byte stored behind a span lengthens the span. -/
theorem bufSpan_storeAt_succ (buf : Buffer) (n : Nat) (b : Byte) (s : State) :
    bufSpan buf (n + 1) (storeAt (bufBase buf + n) b s) = bufSpan buf n s ++ [b] := by
  have hkept : bufSpan buf n (storeAt (bufBase buf + n) b s) = bufSpan buf n s :=
    bufSpan_congr fun j hj => by rw [byteAt_storeAt, if_neg (by omega)]
  rw [bufSpan_succ, hkept, byteAt_storeAt, if_pos rfl]

/-! ## The request frame, byte by byte (42_builder.md R150, R151) -/

theorem requestRegion_length (s : State) : (requestRegion s).length = s.len.toNat + 2 := by
  simp [requestRegion, payload]

/-- The frame is the region it protects, between the start marker and the checksum with the end marker. -/
theorem requestFrame_eq (s : State) :
    requestFrame s = [0x07, 0xF0] ++ (requestRegion s ++ [checksum (requestRegion s), 0x07, 0x0F]) := by
  simp [requestFrame, frame, requestRegion]

theorem requestFrame_length (s : State) : (requestFrame s).length = s.len.toNat + 7 := by
  simp [requestFrame_eq, requestRegion_length]

theorem payload_getElem? {j : Nat} (hj : j < s.len.toNat) : (payload s)[j]? = some (byteAt s (0x100 + j)) := by
  have hlen : j < (bufSpan .tx s.len.toNat s).length := by rwa [bufSpan_length]
  change (bufSpan .tx s.len.toNat s)[j]? = _
  rw [List.getElem?_eq_getElem hlen, bufSpan_getElem, bufBase_tx]

/-- At the offsets 2 to 3 + N BUILD_RUN writes the bytes of the region. -/
theorem buildByte_region {o : Nat} (hlo : 2 ≤ o) (hhi : o ≤ s.len.toNat + 3) :
    buildByte s o = (requestRegion s)[o - 2]? := by
  have hlen := s.len.isLt
  obtain rfl | rfl | ⟨j, rfl⟩ : o = 2 ∨ o = 3 ∨ ∃ j, o = j + 4 := by
    obtain h | h | h : o = 2 ∨ o = 3 ∨ 4 ≤ o := by omega
    exacts [.inl h, .inr (.inl h), .inr (.inr ⟨o - 4, by omega⟩)]
  · rfl
  · rfl
  · have hj : j < s.len.toNat := by omega
    have hread : buildByte s (j + 4) = bufRead .tx j s := by
      simp [buildByte, payloadLength, show j + 4 ≤ 3 + s.len.toNat by omega]
    rw [hread, bufRead_of_lt s (by rw [bufSize_tx]; omega), show j + 4 - 2 = j + 2 by omega]
    exact (payload_getElem? hj).symm

/-- At the last three offsets it writes `acc` and the end marker. -/
theorem buildByte_tail {j : Nat} (hj : j < 3) : buildByte s (s.len.toNat + 4 + j) = [s.acc, 0x07, 0x0F][j]? := by
  obtain rfl | rfl | rfl : j = 0 ∨ j = 1 ∨ j = 2 := by omega
  all_goals
    simp (disch := omega) only [buildByte, payloadLength, if_neg, if_pos]
    rfl

/-- BUILD_RUN writes the frame's byte at every offset, if `acc` holds the checksum at offset 4 + N. -/
theorem buildByte_eq_requestFrame {o : Nat} (ho : o ≤ s.len.toNat + 6)
    (hacc : o = s.len.toNat + 4 → s.acc = checksum (requestRegion s)) : buildByte s o = (requestFrame s)[o]? := by
  have hmarker : ([0x07, 0xF0] : List Byte).length = 2 := rfl
  have hregion := requestRegion_length s
  rw [requestFrame_eq]
  obtain hlt | hlo : o < 2 ∨ 2 ≤ o := by omega
  · obtain rfl | rfl : o = 0 ∨ o = 1 := by omega
    · rfl
    · rfl
  rw [List.getElem?_append_right (by rwa [hmarker]), hmarker]
  obtain hhi | hhi : o ≤ s.len.toNat + 3 ∨ s.len.toNat + 4 ≤ o := by omega
  · rw [buildByte_region hlo hhi, List.getElem?_append_left (by omega)]
  · obtain ⟨j, rfl⟩ := Nat.exists_eq_add_of_le hhi
    rw [List.getElem?_append_right (by omega), hregion, show s.len.toNat + 4 + j - 2 - (s.len.toNat + 2) = j by omega]
    rw [buildByte_tail (by omega)]
    obtain rfl | hj := Nat.eq_zero_or_pos j
    · rw [← hacc rfl]
    · obtain ⟨k, rfl⟩ := Nat.exists_eq_add_of_lt hj
      rfl

/-- A byte of FRAMEBUF is outside the operands and the payload, and so are the registers of BUILD_RUN. -/
theorem requestRegion_storeFrame (o : Nat) (b : Byte) (s : State) :
    requestRegion (storeAt (0x400 + o) b (buildRegs o b s)) = requestRegion s := by
  obtain ⟨csum, acc, seen, hregs⟩ := buildRegs_eq o b s
  have hlen := s.len.isLt
  have hpay : payload (storeAt (0x400 + o) b s) = payload s :=
    bufSpan_congr fun j hj => by
      have hj : j < s.len.toNat := hj
      rw [bufBase_tx, byteAt_storeAt, if_neg (by omega)]
  rw [hregs]
  exact congrArg (fun p => s.cmd :: s.len :: p) hpay

/-! ## The frame built so far (42_builder.md R152) -/

/-- The first `o` bytes of the frame have been built. -/
structure Built (o : Nat) (s : State) : Prop where
  frame : bufSpan .frame o s = (requestFrame s).take o
  scan : scanned s ((requestRegion s).take (o - 2))
  csum : s.len.toNat + 4 < o → s.csum = checksum (requestRegion s)

namespace Built

variable {o : Nat} {b : Byte}

/-- The registers that `Built` does not speak of may take any value. -/
theorem setIdx (h : Built o s) (idx : FrameIdx) : Built o { s with idx } := ⟨h.frame, h.scan, h.csum⟩

/-- At offset 4 + N the whole region has been scanned. -/
theorem acc_eq (h : Built o s) (ho : o = s.len.toNat + 4) : s.acc = checksum (requestRegion s) := by
  rw [h.scan.acc_eq, List.take_of_length_le (by rw [requestRegion_length]; omega)]

/-- The offsets 2 to 3 + N scan the region, and the others scan nothing. -/
theorem scan_succ (h : Built o s) (hb : buildByte s o = some b) :
    scanned (buildRegs o b s) ((requestRegion s).take (o + 1 - 2)) := by
  have hregion := requestRegion_length s
  unfold buildRegs
  split
  · next ho =>
    have hlo : 2 ≤ o := ho.1
    have hhi : o ≤ 3 + s.len.toNat := ho.2
    rw [buildByte_region hlo (by omega)] at hb
    rw [show o + 1 - 2 = o - 2 + 1 by omega, List.take_add_one, hb]
    exact h.scan.snoc b
  · next ho =>
    have ho : ¬ (2 ≤ o ∧ o ≤ 3 + s.len.toNat) := ho
    have hsame : (requestRegion s).take (o + 1 - 2) = (requestRegion s).take (o - 2) := by
      obtain hlt | hge : o < 2 ∨ s.len.toNat + 4 ≤ o := by omega
      · rw [show o + 1 - 2 = 0 by omega, show o - 2 = 0 by omega]
      · rw [List.take_of_length_le (by omega), List.take_of_length_le (by omega)]
    rw [hsame]
    split <;> exact h.scan

/-- From offset 4 + N on CSUM holds the checksum. -/
theorem csum_succ (h : Built o s) (ho : s.len.toNat + 4 < o + 1) :
    (buildRegs o b s).csum = checksum (requestRegion s) := by
  rw [buildRegs, if_neg (by change ¬ (2 ≤ o ∧ o ≤ 3 + s.len.toNat); omega)]
  split
  · next he => exact h.acc_eq (he.trans (Nat.add_comm ..))
  · next hne =>
    have hne : o ≠ 4 + s.len.toNat := hne
    exact h.csum (by omega)

/-- The byte stored at offset `o` makes the first `o` bytes of the frame the first `o + 1`. -/
theorem span_succ (h : Built o s) (ho : o ≤ s.len.toNat + 6) (hb : buildByte s o = some b) :
    bufSpan .frame (o + 1) (storeAt (0x400 + o) b (buildRegs o b s)) = (requestFrame s).take (o + 1) := by
  obtain ⟨csum, acc, seen, hregs⟩ := buildRegs_eq o b s
  have hbyte : (requestFrame s)[o]? = some b := (buildByte_eq_requestFrame ho h.acc_eq).symm.trans hb
  calc bufSpan .frame (o + 1) (storeAt (0x400 + o) b (buildRegs o b s))
    _ = bufSpan .frame (o + 1) (storeAt (0x400 + o) b s) := by rw [hregs]; rfl
    _ = bufSpan .frame o s ++ [b] := bufSpan_storeAt_succ .frame o b s
    _ = (requestFrame s).take (o + 1) := by rw [h.frame, List.take_add_one, hbyte, Option.toList_some]

/-- BUILD_RUN at offset `o` makes the first `o` bytes of the frame the first `o + 1` (42_builder.md R151, R152). -/
theorem succ (h : Built o s) (ho : o ≤ s.len.toNat + 6) (hb : buildByte s o = some b) :
    Built (o + 1) (storeAt (0x400 + o) b (buildRegs o b s)) := by
  have hregion := requestRegion_storeFrame o b s
  have hframe : requestFrame (storeAt (0x400 + o) b (buildRegs o b s)) = requestFrame s := by
    rw [requestFrame_eq, hregion, ← requestFrame_eq]
  have hlen : (buildRegs o b s).len = s.len := by
    obtain ⟨csum, acc, seen, hregs⟩ := buildRegs_eq o b s
    rw [hregs]
  refine ⟨(h.span_succ ho hb).trans (hframe ▸ rfl), hregion ▸ h.scan_succ hb, fun hlt => ?_⟩
  rw [storeAt_len, hlen] at hlt
  exact hregion ▸ h.csum_succ hlt

/-- The whole frame has been built. -/
theorem whole (h : Built (s.len.toNat + 7) s) :
    bufSpan .frame (s.len.toNat + 7) s = requestFrame s ∧ s.csum = checksum (requestRegion s) :=
  ⟨h.frame.trans (List.take_of_length_le (requestFrame_length s).le), h.csum (by omega)⟩

end Built

/-! ## How a block step ends -/

/-- The data invariant speaks of a running block. -/
theorem DataInv.of_idle (hb : s.busy = false) : DataInv s := fun hbusy => nomatch hb.symm.trans hbusy

/-- Finish ends the operation, so nothing is asked of the data. -/
theorem dataInv_finish (code : ErrCode) (s : State) : DataInv (finish code s) := .of_idle rfl

/-- The states whose entry needs nothing of the state it comes from: nothing has been worked on yet. -/
def freshStates : List FsmState := [.csumRun, .buildRun, .drainFlush, .drainDiscard, .ack0, .ack1, .rspSof0]

theorem dataSoFar_enter_fresh {st : FsmState} (h : st ∈ freshStates) (s : State) : dataSoFar (enter st s) := by
  cases st with
  | csumRun | rspSof0 => exact rfl
  | buildRun => exact ⟨rfl, rfl, fun hlt => absurd hlt (Nat.not_lt_zero _)⟩
  | drainFlush | drainDiscard | ack0 | ack1 => trivial
  | _ => exact absurd h (by decide)

/-- Table 40-1 leads to IDLE, to a fresh state, or from BUILD_RUN to TX_SEND. -/
theorem successor_fresh {st st' : FsmState} (h : successor st i = some st') :
    st' = .idle ∨ st' ∈ freshStates ∨ (st = .buildRun ∧ st' = .txSend) := by
  unfold successor at h
  split at h <;> cases h <;> decide

theorem advance_dataInv (h : advance i s = .next t) (hbuilt : s.fsm = .buildRun → Built (s.len.toNat + 7) s) :
    DataInv t := by
  obtain ⟨-, rfl⟩ | ⟨st, hidle, hst, rfl⟩ := advance_next h
  · exact dataInv_finish .none s
  · obtain rfl | hfresh | ⟨hf, rfl⟩ := successor_fresh hst
    · exact absurd rfl hidle
    · exact fun _ => dataSoFar_enter_fresh hfresh s
    · exact fun _ => (hbuilt hf).whole

theorem emptySample_dataInv (hd : dataSoFar s) (code : ErrCode) : DataInv (emptySample code s) := by
  rw [emptySample_eq]
  split
  · exact dataInv_finish code _
  · exact fun _ => hd

theorem awaitVerify_dataInv {v : Byte} {e : ErrCode} {k : State → Res} (hd : dataSoFar s)
    (hk : ∀ rest, k { s with rxq := rest } = .next t → DataInv t) (h : awaitVerify v e k s = .next t) : DataInv t := by
  obtain ⟨-, h'⟩ | ⟨rest, -, h'⟩ | ⟨b, rest, -, -, h'⟩ := awaitVerify_cases (v := v) (e := e) (k := k) (s := s)
    <;> rw [h'] at h
  · exact Host.Outcome.next.inj h ▸ emptySample_dataInv hd .timeout
  · exact hk rest h
  · exact Host.Outcome.next.inj h ▸ dataInv_finish e _

/-- An await state whose match enters the next state. -/
theorem awaitVerify_enter_dataInv {v : Byte} {e : ErrCode} {st : FsmState} {upd : State → State} (hd : dataSoFar s)
    (h : awaitVerify v e (fun u => .next (enter st (upd u))) s = .next t)
    (henter : ∀ rest, dataSoFar (enter st (upd { s with rxq := rest }))) : DataInv t :=
  awaitVerify_dataInv (k := fun u => .next (enter st (upd u))) hd
    (fun rest hk => Host.Outcome.next.inj hk ▸ fun _ => henter rest) h

/-! ## The data of the states that count -/

theorem dataSoFar_csumRun (hf : s.fsm = .csumRun) : dataSoFar s ↔ scanned s (bufSpan .tx s.idx.toNat s) := by
  simp only [dataSoFar, hf]

theorem dataSoFar_buildRun (hf : s.fsm = .buildRun) : dataSoFar s ↔ Built s.idx.toNat s := by
  simp only [dataSoFar, hf]
  exact ⟨fun ⟨hframe, hscan, hcsum⟩ => ⟨hframe, hscan, hcsum⟩, fun h => ⟨h.frame, h.scan, h.csum⟩⟩

theorem dataSoFar_txSend (hf : s.fsm = .txSend) : dataSoFar s ↔
    bufSpan .frame (s.len.toNat + 7) s = requestFrame s ∧ s.csum = checksum (requestRegion s) := by
  simp only [dataSoFar, hf]

theorem dataSoFar_rspPay (hf : s.fsm = .rspPay) : dataSoFar s ↔
    scanned s (0x00 :: s.expCmd :: s.rxLen :: bufSpan .rx s.idx.toNat s) := by
  simp only [dataSoFar, hf]

/-! ## Every state rule -/

theorem csumRunStep_dataInv (hf : s.fsm = .csumRun) (hd : dataSoFar s) (h : csumRunStep i s = .next t) :
    DataInv t := by
  obtain ⟨hlt, rfl⟩ | ⟨-, h⟩ := csumRunStep_next h
  · have hlen := s.len.isLt
    have hscan := ((dataSoFar_csumRun hf).1 hd).snoc (byteAt s (0x100 + s.idx.toNat))
    refine fun _ => (dataSoFar_csumRun (by exact hf)).2 ?_
    rw [toNat_idx_succ (by omega), bufSpan_succ]
    exact hscan
  · exact advance_dataInv h fun hb => nomatch hf.symm.trans hb

theorem buildRunStep_dataInv (hf : s.fsm = .buildRun) (hd : dataSoFar s) (h : buildRunStep i s = .next t) :
    DataInv t := by
  obtain ⟨b, u, hb, hu, hend⟩ := buildRunStep_next h
  have hlen := s.len.isLt
  have ⟨hulen, hufsm⟩ : u.len = s.len ∧ u.fsm = s.fsm := by
    obtain ⟨csum, acc, seen, hregs⟩ := buildRegs_eq s.idx.toNat b s
    rw [hu, hregs]
    exact ⟨rfl, rfl⟩
  have hsucc : Built (s.idx.toNat + 1) u := hu ▸ ((dataSoFar_buildRun hf).1 hd).succ (by omega) hb
  obtain ⟨hlast, h⟩ | ⟨hlt, rfl⟩ := hend
  · refine advance_dataInv h fun _ => ?_
    rwa [hulen, show s.len.toNat + 7 = s.idx.toNat + 1 by omega]
  · refine fun _ => (dataSoFar_buildRun (by exact hufsm.trans hf)).2 ?_
    rw [toNat_idx_succ (by omega)]
    exact hsucc.setIdx _

theorem txSendStep_dataInv (hf : s.fsm = .txSend) (hd : dataSoFar s) (h : txSendStep i s = .next t) : DataInv t := by
  obtain ⟨-, rfl⟩ | ⟨-, -, h⟩ | ⟨-, -, rfl⟩ := txSendStep_next h
  · exact fun _ => hd
  · exact advance_dataInv h fun hb => nomatch hf.symm.trans hb
  · exact fun _ => (dataSoFar_txSend (by exact hf)).2 ((dataSoFar_txSend hf).1 hd)

theorem drainFlushStep_dataInv (hd : dataSoFar s) (h : drainFlushStep s = .next t) : DataInv t := by
  obtain ⟨-, rfl⟩ | ⟨-, rfl⟩ := drainFlushStep_next h
  · exact fun _ => hd
  · exact fun _ => trivial

theorem drainDiscardStep_dataInv (hf : s.fsm = .drainDiscard) (hd : dataSoFar s)
    (h : drainDiscardStep i s = .next t) : DataInv t := by
  obtain ⟨-, h⟩ | ⟨-, rfl⟩ := drainDiscardStep_next h
  · exact advance_dataInv h fun hb => nomatch hf.symm.trans hb
  · exact fun _ => hd

/-- RSP_LEN scans the length; without a payload the region is complete (43_reader.md R178). -/
theorem rspLenStep_dataInv (hd : dataSoFar s) (hscan : scanned s [0x00, s.expCmd]) (h : rspLenStep s = .next t) :
    DataInv t := by
  obtain ⟨-, h'⟩ | ⟨b, rest, -, h'⟩ := awaitTake_cases (e := .timeout) (s := s) <;> rw [rspLenStep, h'] at h
  · exact Host.Outcome.next.inj h ▸ emptySample_dataInv hd .timeout
  · rw [← Host.Outcome.next.inj h]
    split
    · next hb =>
      subst hb
      exact fun _ => ⟨hscan.snoc 0x00, rfl⟩
    · exact fun _ => hscan.snoc b

/-- RSP_PAY scans the byte that it stores, and the last one completes the region (43_reader.md R179). -/
theorem rspPayStep_dataInv (hi : Inv s) (hf : s.fsm = .rspPay) (hd : dataSoFar s) (h : rspPayStep s = .next t) :
    DataInv t := by
  obtain ⟨-, h'⟩ | ⟨b, rest, -, h'⟩ := awaitTake_cases (e := .incomplete) (s := s) <;> rw [rspPayStep, h'] at h
  · exact Host.Outcome.next.inj h ▸ emptySample_dataInv hd .incomplete
  · have hlt : s.idx.toNat < s.rxLen.toNat := by simpa only [idxInRange, hf] using hi.idx
    have hlen := s.rxLen.isLt
    split at h
    · cases h
    · next u hu =>
      obtain ⟨-, rfl⟩ := bufWrite_eq_some hu
      have hscan : scanned (csumStep b (storeAt (0x200 + s.idx.toNat) b s)) (0x00 :: s.expCmd :: s.rxLen ::
          bufSpan .rx (s.idx.toNat + 1) (storeAt (0x200 + s.idx.toNat) b s)) :=
        (bufSpan_storeAt_succ .rx s.idx.toNat b s).symm ▸ ((dataSoFar_rspPay hf).1 hd).snoc b
      split at h <;> rw [← Host.Outcome.next.inj h]
      · next hlast =>
        have hlast : s.idx.toNat + 1 = s.rxLen.toNat := hlast
        rw [hlast] at hscan
        exact fun _ => ⟨hscan, rfl⟩
      · refine fun _ => (dataSoFar_rspPay (by exact hf)).2 ?_
        rw [toNat_idx_succ (by change s.idx.toNat < 511; omega)]
        exact hscan

/-- A block step of a running operation keeps the data invariant. -/
theorem stateRule_dataInv (hi : Inv s) (hd : dataSoFar s) (h : stateRule i s = .next t) : DataInv t := by
  cases hf : s.fsm <;> simp only [stateRule, hf] at h
  case idle => exact Host.Outcome.next.inj h ▸ fun _ => hd
  case csumRun => exact csumRunStep_dataInv hf hd h
  case buildRun => exact buildRunStep_dataInv hf hd h
  case txSend => exact txSendStep_dataInv hf hd h
  case drainFlush => exact drainFlushStep_dataInv hd h
  case drainDiscard => exact drainDiscardStep_dataInv hf hd h
  case ack0 => exact awaitVerify_enter_dataInv hd h fun _ => trivial
  case ack1 | rspEof1 =>
    exact awaitVerify_dataInv hd (fun _ hk => advance_dataInv hk fun hb => nomatch hf.symm.trans hb) h
  case rspSof0 | rspSof1 =>
    have hscan : scanned s [] := by simpa only [dataSoFar, hf] using hd
    exact awaitVerify_enter_dataInv hd h fun _ => hscan
  case rspCmdh =>
    have hscan : scanned s [] := by simpa only [dataSoFar, hf] using hd
    exact awaitVerify_enter_dataInv hd h fun _ => hscan.snoc 0x00
  case rspCmdl =>
    have hscan : scanned s [0x00] := by simpa only [dataSoFar, hf] using hd
    exact awaitVerify_enter_dataInv hd h fun _ => hscan.snoc s.expCmd
  case rspLen => exact rspLenStep_dataInv hd (by simpa only [dataSoFar, hf] using hd) h
  case rspPay => exact rspPayStep_dataInv hi hf hd h
  case rspCsum =>
    obtain ⟨hscan, hcsum⟩ : scanned s (0x00 :: s.expCmd :: s.rxLen :: responsePayload s) ∧ s.csum = s.acc := by
      simpa only [dataSoFar, hf] using hd
    exact awaitVerify_enter_dataInv hd h fun _ => hcsum.trans hscan.acc_eq
  case rspEof0 =>
    have hcsum : s.csum = checksum (0x00 :: s.expCmd :: s.rxLen :: responsePayload s) := by
      simpa only [dataSoFar, hf] using hd
    exact awaitVerify_enter_dataInv hd h fun _ => hcsum

/-! ## Every move -/

/-- The transport, the agenda and the host's log are outside the data invariant. -/
theorem DataInv.setEnvironment (hd : DataInv s) {rxq : List Byte} {txReady txEmpty : Bool} {agenda : List Move}
    {hostLog : List Byte} : DataInv { s with rxq, txReady, txEmpty, agenda, hostLog } := hd

/-- Every operation with a phase starts in a fresh state. -/
theorem head_phasesOf_fresh {st : FsmState} {rest : List FsmState} (h : phasesOf i = st :: rest) :
    st ∈ freshStates := by
  have heads : ∀ x ∈ (phasesOf i).head?, x ∈ freshStates := by cases i <;> decide
  exact heads st (by rw [h, List.head?_cons]; rfl)

theorem startOp_dataInv (i : Instr) (clears : Bool) (s : State) : DataInv (startOp (phasesOf i) clears s) := by
  obtain ⟨-, h⟩ | ⟨st, rest, hph, h⟩ := startOp_cases (phasesOf i) clears s <;> rw [h]
  · exact .of_idle rfl
  · exact fun _ => dataSoFar_enter_fresh (head_phasesOf_fresh hph) _

theorem clockTick_dataInv (hi : Inv s) (hd : DataInv s) (h : clockTick s = .next t) : DataInv t := by
  obtain ⟨-, rfl⟩ | ⟨i, hb, -, -, h⟩ := clockTick_next h
  · exact hd
  · exact stateRule_dataInv hi (hd hb) h

/-- A host write is ignored, starts an operation, or leaves an idle block idle. -/
theorem hostWrite_dataInv {a : HostAddr} {v : Byte} (hd : DataInv s) (h : hostWrite a v s = .next t) : DataInv t := by
  obtain ⟨-, rfl⟩ | ⟨-, -, i, -, rfl⟩ | ⟨-, -, -, rfl⟩ | ⟨hb, -, rfl⟩ | ⟨hb, -, rfl⟩ | ⟨hb, -, rfl⟩
    | ⟨hb, -, -, rfl⟩ | ⟨-, rfl⟩ := hostWrite_next h
  case inl | inr.inr.inr.inr.inr.inr.inr => exact hd
  case inr.inl => exact startOp_dataInv i _ _
  case inr.inr.inl => exact dataInv_finish .illegalOp _
  all_goals exact .of_idle hb

/-- Settles O52: a clock is a block step, a host write ends in one of the cases of `hostWrite_dataInv`, reset leaves the
block idle, and every other move is the environment's. -/
theorem everyStepKeepsTheDataInvariant : Obligations.EveryStepKeepsTheDataInvariant := by
  intro s t hi hd h
  obtain ⟨u, rfl, ⟨-, h⟩ | ⟨a, v, -, h⟩ | ⟨a, -, rfl⟩ | ⟨-, rfl⟩ | ⟨bs, -, rfl⟩ | ⟨b, -, rfl⟩ | ⟨b, -, rfl⟩
    | ⟨-, rfl⟩ | ⟨-, rfl⟩⟩ := step_next h
  case inl => exact clockTick_dataInv (hi.setEnvironment ..) hd.setEnvironment h
  case inr.inl => exact hostWrite_dataInv hd.setEnvironment h
  case inr.inr.inr.inr.inr.inr.inr.inr => exact .of_idle rfl
  all_goals exact hd.setEnvironment

end Sys2Proof.Machine
end

section
/-!
PROOFS. The frame builder (42_builder.md): one step of BUILD_RUN and of TX_SEND, and the operations BUILD and SEND.

With an empty agenda each of the two phases is a run of N + 7 clocks. Along BUILD_RUN a clock builds one byte more of the
frame (`FrameBuilt`, over the `Built` of the data invariant), and along TX_SEND it pushes one byte more of FRAMEBUF
(`sentAt`). Both runs are stated for every operation that has the phase, up to the Advance that ends it.
-/
namespace Sys2Proof.Machine

variable {i : Instr} {s t u : State} {b : Byte} {j : Nat}

/-! ## One step of BUILD_RUN (42_builder.md R151) -/

/-- Advance answers from every phase that can end (40_dispatch.md R112). -/
theorem advance_answers (hp : s.fsm ∈ phasesOf i) (ha : s.fsm ∈ advancingStates) : ∃ t, advance i s = .next t := by
  obtain hidle | ⟨st, hst, -, hsucc⟩ := successor_of_advancing ha hp
  · exact ⟨_, advance_finish hidle⟩
  · exact ⟨_, advance_enter hsucc (ne_idle_of_mem_phasesOf hst)⟩

theorem stateRule_buildRun (hf : s.fsm = .buildRun) : stateRule i s = buildRunStep i s := by rw [stateRule, hf]

theorem stateRule_txSend (hf : s.fsm = .txSend) : stateRule i s = txSendStep i s := by rw [stateRule, hf]

theorem buildByte_payload {o : Nat} (hlo : 4 ≤ o) (hhi : o ≤ 3 + s.len.toNat) :
    buildByte s o = some (byteAt s (0x100 + (o - 4))) := by
  rw [buildByte_region (by omega) (by omega), show o - 2 = o - 4 + 2 by omega]
  exact payload_getElem? (by omega)

/-- The registers of BUILD_RUN, each by the offsets that write it. -/
theorem buildRegs_eq_ite (o : Nat) (b : Byte) (s : State) :
    buildRegs o b s =
      { (if 2 ≤ o ∧ o ≤ 3 + s.len.toNat then csumStep b s else s) with
        csum := if o = 4 + s.len.toNat then s.acc else s.csum } := by
  unfold buildRegs payloadLength
  split
  · next ho => rw [if_neg (by omega)]; rfl
  · split <;> rfl

/-- BUILD_RUN's work at the offset `idx` before it increments `idx` or advances: the byte in FRAMEBUF, and the
registers besides `idx`. -/
def withFrameByte (b : Byte) (s : State) : State := storeAt (0x400 + s.idx.toNat) b (buildRegs s.idx.toNat b s)

/-- BUILD_RUN changes CSUM, the checksum engine and memory, besides `idx`. -/
theorem withFrameByte_eq (b : Byte) (s : State) :
    ∃ csum acc seen mem, withFrameByte b s = { s with csum, acc, seen, mem } := by
  obtain ⟨csum, acc, seen, hregs⟩ := buildRegs_eq s.idx.toNat b s
  exact ⟨csum, acc, seen, memWrite s.mem (0x400 + s.idx.toNat) b, by rw [withFrameByte, hregs]; rfl⟩

theorem byteAt_withFrameByte (b : Byte) (s : State) (a : Nat) :
    byteAt (withFrameByte b s) a = if a = 0x400 + s.idx.toNat then b else byteAt s a := by
  obtain ⟨csum, acc, seen, hregs⟩ := buildRegs_eq s.idx.toNat b s
  rw [withFrameByte, byteAt_storeAt, hregs]
  rfl

/-- At an offset of the frame BUILD_RUN writes that offset's byte, and ends at offset N + 6. -/
theorem buildRunStep_of_byte (hle : s.idx.toNat ≤ s.len.toNat + 6) (hb : buildByte s s.idx.toNat = some b) :
    buildRunStep i s =
      if s.idx.toNat = s.len.toNat + 6 then advance i (withFrameByte b s)
      else .next { withFrameByte b s with idx := s.idx + 1 } := by
  have hlen := s.len.isLt
  have hframe : s.idx.toNat < bufSize .frame := by rw [bufSize_frame]; omega
  simp only [buildRunStep, if_neg (Nat.not_lt.2 hle), hb, bufWrite_of_lt b _ hframe]
  rfl

/-- At an offset of the frame the step of BUILD_RUN answers. -/
theorem exec_buildRun (hb : s.busy = true) (hf : s.fsm = .buildRun) (hp : FsmState.buildRun ∈ phasesOf i)
    (hle : s.idx.toNat ≤ s.len.toNat + 6) (hbyte : buildByte s s.idx.toNat = some b) :
    ∃ u, exec i s = .next u
      ∧ (s.idx.toNat = s.len.toNat + 6 → .next u = advance i (withFrameByte b s))
      ∧ (s.idx.toNat < s.len.toNat + 6 → u = { withFrameByte b s with idx := s.idx + 1 }) := by
  rw [exec_busy hb (hf ▸ hp), stateRule_buildRun hf, buildRunStep_of_byte hle hbyte]
  obtain he | hlt := Nat.eq_or_lt_of_le hle
  · have hfsm : (withFrameByte b s).fsm = .buildRun := by
      obtain ⟨csum, acc, seen, mem, hwith⟩ := withFrameByte_eq b s
      rw [hwith, hf]
    obtain ⟨u, hu⟩ := advance_answers (hfsm ▸ hp) (by rw [hfsm]; decide)
    exact ⟨u, by rw [if_pos he, hu], fun _ => hu.symm, fun hlt => absurd he hlt.ne⟩
  · exact ⟨_, by rw [if_neg hlt.ne], fun he => absurd he hlt.ne, fun _ => rfl⟩

/-- Settles O24: the byte by the cases of `buildByte`, then the step from `exec_buildRun`. -/
theorem buildRunWritesOneFrameByte : Obligations.BuildRunWritesOneFrameByte := by
  intro s i hb hf hp hle
  obtain ⟨b, hbyte⟩ := buildByte_eq_some s s.idx.toNat
  obtain ⟨u, hu, hlast, hlt⟩ := exec_buildRun hb hf hp hle hbyte
  have byte_eq {o : Nat} {b' : Byte} (ho : s.idx.toNat = o) (h : buildByte s o = some b') : b = b' :=
    Option.some.inj (hbyte.symm.trans (ho ▸ h))
  have tail_eq {k : Nat} (hk : k < 3) {b' : Byte} (h : [s.acc, 0x07, 0x0F][k]? = some b')
      (ho : s.idx.toNat = 4 + k + s.len.toNat) : b = b' :=
    byte_eq (ho.trans (by omega : _ = s.len.toNat + 4 + k)) ((buildByte_tail hk).trans h)
  refine ⟨b, withFrameByte b s, u, hu, fun h => byte_eq h rfl, fun h => byte_eq h rfl, fun h => byte_eq h rfl,
    fun h => byte_eq h rfl, fun ⟨hlo, hhi⟩ => byte_eq rfl (buildByte_payload hlo hhi), tail_eq (k := 0) (by decide) rfl,
    tail_eq (k := 1) (by decide) rfl, tail_eq (k := 2) (by decide) rfl, byteAt_withFrameByte b s, ?_, hlast, hlt⟩
  rw [withFrameByte, buildRegs_eq_ite]
  rfl

/-! ## One step of TX_SEND (42_builder.md R153) -/

theorem txSendStep_waits (hready : s.txReady = false) : txSendStep i s = .next s := by
  rw [txSendStep, hready]
  rfl

/-- At an offset of the frame TX_SEND pushes that byte of FRAMEBUF, and ends at offset N + 6. -/
theorem txSendStep_pushes (hready : s.txReady = true) (hle : s.idx.toNat ≤ s.len.toNat + 6) :
    txSendStep i s =
      if s.idx.toNat = s.len.toNat + 6 then advance i (txPush (byteAt s (0x400 + s.idx.toNat)) s)
      else .next { txPush (byteAt s (0x400 + s.idx.toNat)) s with idx := s.idx + 1 } := by
  have hlen := s.len.isLt
  have hframe : s.idx.toNat < bufSize .frame := by rw [bufSize_frame]; omega
  rw [txSendStep, if_pos hready, bufRead_of_lt s hframe]
  rfl

/-- Settles O25: the wait, and the two ends of a push. -/
theorem txSendPushesOneByteWhenReady : Obligations.TxSendPushesOneByteWhenReady := by
  intro s i hb hf hp hle
  rw [exec_busy hb (hf ▸ hp), stateRule_txSend hf]
  refine ⟨txSendStep_waits, fun hready hlt => ?_, fun hready he => ?_⟩
  · rw [txSendStep_pushes hready hle, if_neg hlt.ne]
    rfl
  · rw [txSendStep_pushes hready hle, if_pos he]
    rfl

/-! ## A block that is left alone (log 7) -/

/-- The block runs the operation `i`, and no move but a clock is to come. -/
structure LeftAlone (i : Instr) (s : State) : Prop where
  busy : s.busy = true
  decoded : decodeOp s.op = .ok i
  agenda : s.agenda = []

namespace LeftAlone

/-- Every step of a block that is left alone is a block step. -/
theorem step_eq (h : LeftAlone i s) (hp : s.fsm ∈ phasesOf i) : step s = stateRule i s :=
  (step_nil h.agenda).trans (clockTick_rule h.busy h.decoded hp)

/-- Enter leaves the block running, and the agenda empty. -/
theorem enter (h : LeftAlone i s) (st : FsmState) : LeftAlone i (enter st s) := ⟨h.busy, h.decoded, h.agenda⟩

end LeftAlone

/-! ## The run of BUILD_RUN (42_builder.md R152) -/

/-- Between `s` and `t` the first `j` bytes of the frame have been built, and nothing else has changed but the registers
of BUILD_RUN. -/
structure FrameBuilt (s : State) (j : Nat) (t : State) : Prop where
  regs : t = { s with csum := t.csum, mem := t.mem, idx := t.idx, acc := t.acc, seen := t.seen }
  built : Built j t
  kept : ∀ a, a < 0x400 ∨ 0x400 + s.len.toNat + 7 ≤ a → byteAt t a = byteAt s a

namespace FrameBuilt

theorem fsm_eq (h : FrameBuilt s j t) : t.fsm = s.fsm := by rw [h.regs]

theorem len_eq (h : FrameBuilt s j t) : t.len = s.len := by rw [h.regs]

theorem statusByte_eq (h : FrameBuilt s j t) : statusByte t = statusByte s := by rw [h.regs]; rfl

theorem leftAlone (h : FrameBuilt s j t) (hs : LeftAlone i s) : LeftAlone i t := by
  rw [h.regs]
  exact ⟨hs.busy, hs.decoded, hs.agenda⟩

/-- The operands and the payload are outside FRAMEBUF. -/
theorem requestRegion_eq (h : FrameBuilt s j t) : requestRegion t = requestRegion s := by
  have hlen := s.len.isLt
  have hpay : bufSpan .tx s.len.toNat t = bufSpan .tx s.len.toNat s :=
    bufSpan_congr fun k hk => h.kept _ (.inl (by rw [bufBase_tx]; omega))
  have hcmd : t.cmd = s.cmd := by rw [h.regs]
  rw [requestRegion, payload, payloadLength, hcmd, h.len_eq, hpay]
  rfl

theorem requestFrame_eq (h : FrameBuilt s j t) : requestFrame t = requestFrame s := by
  rw [Machine.requestFrame_eq, h.requestRegion_eq, ← Machine.requestFrame_eq]

/-- At the end FRAMEBUF holds the frame, and CSUM its checksum (42_builder.md R152). -/
theorem whole (h : FrameBuilt s (s.len.toNat + 7) t) :
    bufSpan .frame (s.len.toNat + 7) t = requestFrame s ∧ t.csum = checksum (requestRegion s) := by
  rw [← h.requestFrame_eq, ← h.requestRegion_eq, ← h.len_eq]
  exact Built.whole (h.len_eq ▸ h.built)

theorem setIdx (h : FrameBuilt s j t) (idx : FrameIdx) : FrameBuilt s j { t with idx } :=
  ⟨by rw [h.regs], h.built.setIdx idx, h.kept⟩

/-- A step of BUILD_RUN builds one byte more. -/
theorem succ (h : FrameBuilt s j t) (hidx : t.idx.toNat = j) (hj : j ≤ s.len.toNat + 6) :
    ∃ u, FrameBuilt s (j + 1) u
      ∧ buildRunStep i t = if j = s.len.toNat + 6 then advance i u else .next { u with idx := t.idx + 1 } := by
  obtain rfl := hidx
  rw [← h.len_eq] at hj ⊢
  obtain ⟨b, hb⟩ := buildByte_eq_some t t.idx.toNat
  refine ⟨withFrameByte b t, ⟨?_, h.built.succ hj hb, fun a ha => ?_⟩, buildRunStep_of_byte hj hb⟩
  · obtain ⟨csum, acc, seen, mem, hwith⟩ := withFrameByte_eq b t
    rw [hwith, h.regs]
  · rw [← h.kept a ha, byteAt_withFrameByte, if_neg (by rw [← h.len_eq] at ha; omega)]

end FrameBuilt

/-- On the entry into BUILD_RUN nothing of the frame has been built. -/
theorem frameBuilt_enter (s : State) : FrameBuilt (enter .buildRun s) 0 (enter .buildRun s) :=
  ⟨rfl, (dataSoFar_buildRun rfl).1 (dataSoFar_enter_fresh (st := .buildRun) (by decide) s), fun _ _ => rfl⟩

/-- After `j` clocks of BUILD_RUN the first `j` bytes of the frame have been built. -/
theorem run_buildRun (hs : LeftAlone i s) (hp : FsmState.buildRun ∈ phasesOf i) (hj : j ≤ s.len.toNat + 6) :
    ∃ t, run j (enter .buildRun s) = .next t ∧ t.idx.toNat = j ∧ FrameBuilt (enter .buildRun s) j t := by
  induction j with
  | zero => exact ⟨_, rfl, rfl, frameBuilt_enter s⟩
  | succ j ih =>
    have hlen := s.len.isLt
    obtain ⟨t, hrun, hidx, ht⟩ := ih (by omega)
    obtain ⟨u, hu, hstep⟩ := ht.succ (i := i) hidx (by exact Nat.le_of_succ_le hj)
    refine ⟨_, run_snoc hrun ?_, ?_, hu.setIdx (t.idx + 1)⟩
    · rw [(ht.leftAlone (hs.enter .buildRun)).step_eq (ht.fsm_eq ▸ hp), stateRule_buildRun ht.fsm_eq,
        hstep, if_neg (by change j ≠ s.len.toNat + 6; omega)]
    · change (t.idx + 1).toNat = j + 1
      rw [toNat_idx_succ (by omega), hidx]

/-- N + 7 clocks after the entry into BUILD_RUN the whole frame has been built, and the phase ends with Advance. -/
theorem run_buildRun_end (hs : LeftAlone i s) (hp : FsmState.buildRun ∈ phasesOf i) :
    ∃ t, FrameBuilt (enter .buildRun s) (s.len.toNat + 7) t
      ∧ ∀ u, advance i t = .next u → run (s.len.toNat + 7) (enter .buildRun s) = .next u := by
  obtain ⟨t, hrun, hidx, ht⟩ := run_buildRun hs hp le_rfl
  obtain ⟨u, hu, hstep⟩ := ht.succ (i := i) hidx le_rfl
  refine ⟨u, hu, fun v hv => run_snoc hrun ?_⟩
  rw [(ht.leftAlone (hs.enter .buildRun)).step_eq (ht.fsm_eq ▸ hp), stateRule_buildRun ht.fsm_eq, hstep,
    if_pos (by rfl), hv]

/-- STATUS holds its value through BUILD_RUN. -/
theorem statusByte_run_buildRun (hs : LeftAlone i s) (hp : FsmState.buildRun ∈ phasesOf i) (hj : j < s.len.toNat + 7)
    (hrun : run j (enter .buildRun s) = .next t) : statusByte t = statusByte s := by
  obtain ⟨w, hw, -, hbuilt⟩ := run_buildRun hs hp (Nat.le_of_lt_succ hj)
  obtain rfl := Host.Outcome.next.inj (hw.symm.trans hrun)
  exact hbuilt.statusByte_eq

/-! ## The operation BUILD (42_builder.md R154) -/

/-- Where FRAMEBUF holds the frame, its byte at offset 4 + N is the checksum (42_builder.md R150). -/
theorem byteAt_of_frame (h : bufSpan .frame (s.len.toNat + 7) t = requestFrame s) :
    byteAt t (0x400 + (4 + s.len.toNat)) = checksum (requestRegion s) := by
  have hlen : 4 + s.len.toNat < (bufSpan .frame (s.len.toNat + 7) t).length := by rw [bufSpan_length]; omega
  have hregion := requestRegion_length s
  have hbyte : (requestFrame s)[4 + s.len.toNat]? = some (byteAt t (0x400 + (4 + s.len.toNat))) := by
    rw [← h, List.getElem?_eq_getElem hlen, bufSpan_getElem, bufBase_frame]
  have hsum : (requestFrame s)[4 + s.len.toNat]? = some (checksum (requestRegion s)) := by
    rw [requestFrame_eq, show 4 + s.len.toNat = (requestRegion s).length + 2 by omega]
    simp
  exact Option.some.inj (hbyte.symm.trans hsum)

/-- STATUS after Start is 0x01 (10_state.md R22). -/
theorem statusByte_startedIn (st : FsmState) (s : State) : statusByte (startedIn st s) = 0x01 := by
  change statusOf true false false .none = 0x01
  decide

/-- Settles O36: the run of BUILD_RUN, and Finish. -/
theorem buildOperationLeavesTheFrame : Obligations.BuildOperationLeavesTheFrame := by
  intro s hb hop ha
  have hp : FsmState.buildRun ∈ phasesOf .build := by decide
  have hs : LeftAlone .build (startedIn .buildRun s) := ⟨rfl, hop ▸ decodeOp_opcode .build, ha⟩
  obtain ⟨t, ht, hend⟩ := run_buildRun_end hs hp
  have hadv : advance .build t = .next (finish .none t) := advance_finish (by rw [ht.fsm_eq]; rfl)
  obtain ⟨hframe, hcsum⟩ := ht.whole
  refine ⟨enter .buildRun (startedIn .buildRun s), finish .none t, exec_idle hb, hend _ hadv, fun m w hm hw => ?_,
    hframe, hcsum, hcsum.trans (byteAt_of_frame hframe).symm, ht.kept, ?_, ?_⟩
  · rw [statusByte_run_buildRun hs hp hm hw, statusByte_startedIn]
  · rw [statusByte_finish]
    decide
  · rw [ht.regs]
    rfl

/-! ## The run of TX_SEND (42_builder.md R153) -/

/-- The state `s` with the first `j` bytes of FRAMEBUF pushed. -/
def sentAt (j : Nat) (s : State) : State :=
  { s with idx := BitVec.ofNat 9 j, txLog := s.txLog ++ bufSpan .frame j s }

theorem txPush_sentAt (j : Nat) (s : State) :
    txPush (byteAt s (0x400 + j)) (sentAt j s) = { sentAt (j + 1) s with idx := BitVec.ofNat 9 j } := by
  simp only [txPush, sentAt, bufSpan_succ, bufBase_frame, List.append_assoc]

/-- A clock of TX_SEND pushes one byte more. -/
theorem step_sentAt (hs : LeftAlone i s) (hp : FsmState.txSend ∈ phasesOf i) (hf : s.fsm = .txSend)
    (hready : s.txReady = true) (hj : j ≤ s.len.toNat + 6) :
    step (sentAt j s) =
      if j = s.len.toNat + 6 then advance i { sentAt (j + 1) s with idx := BitVec.ofNat 9 j }
      else .next (sentAt (j + 1) s) := by
  have hlen := s.len.isLt
  have hidx : (sentAt j s).idx.toNat = j := Nat.mod_eq_of_lt (by omega)
  have hsucc : BitVec.ofNat 9 (j + 1) = BitVec.ofNat 9 j + 1 := BitVec.ofNat_add j 1
  have halone : LeftAlone i (sentAt j s) := ⟨hs.busy, hs.decoded, hs.agenda⟩
  rw [halone.step_eq (by rwa [sentAt, hf]), stateRule_txSend (by exact hf),
    txSendStep_pushes (by exact hready) (by rwa [hidx]), hidx]
  change (if j = s.len.toNat + 6 then advance i (txPush (byteAt s (0x400 + j)) (sentAt j s)) else
    .next { txPush (byteAt s (0x400 + j)) (sentAt j s) with idx := BitVec.ofNat 9 j + 1 }) = _
  rw [txPush_sentAt, ← hsucc]
  rfl

/-- After `j` clocks of TX_SEND the first `j` bytes of FRAMEBUF have been pushed. -/
theorem run_txSend (hs : LeftAlone i s) (hp : FsmState.txSend ∈ phasesOf i) (hready : s.txReady = true)
    (hj : j ≤ s.len.toNat + 6) : run j (enter .txSend s) = .next (sentAt j (enter .txSend s)) := by
  induction j with
  | zero => rw [sentAt, bufSpan_zero, List.append_nil]; rfl
  | succ j ih =>
    refine run_snoc (ih (by omega)) ?_
    rw [step_sentAt (hs.enter .txSend) hp rfl hready (by exact Nat.le_of_succ_le hj),
      if_neg (by exact (Nat.lt_of_succ_le hj).ne)]

/-- N + 7 clocks after the entry into TX_SEND the whole frame has been pushed, and the phase ends with Advance. -/
theorem run_txSend_end (hs : LeftAlone i s) (hp : FsmState.txSend ∈ phasesOf i) (hready : s.txReady = true)
    (hadv : advance i { sentAt (s.len.toNat + 7) (enter .txSend s) with idx := BitVec.ofNat 9 (s.len.toNat + 6) }
      = .next u) : run (s.len.toNat + 7) (enter .txSend s) = .next u := by
  have hstep := step_sentAt (j := s.len.toNat + 6) (hs.enter .txSend) hp rfl hready le_rfl
  exact run_snoc (run_txSend hs hp hready le_rfl) (hstep.trans ((if_pos rfl).trans hadv))

/-- STATUS holds its value through TX_SEND. -/
theorem statusByte_run_txSend (hs : LeftAlone i s) (hp : FsmState.txSend ∈ phasesOf i) (hready : s.txReady = true)
    (hj : j < s.len.toNat + 7) (hrun : run j (enter .txSend s) = .next t) : statusByte t = statusByte s := by
  obtain rfl := Host.Outcome.next.inj ((run_txSend hs hp hready (Nat.le_of_lt_succ hj)).symm.trans hrun)
  rfl

/-! ## The operation SEND (42_builder.md R155, R156) -/

/-- Settles O37: the run of BUILD_RUN, the run of TX_SEND over the frame that it built, and Finish. -/
theorem sendOperationTransmitsTheFrame : Obligations.SendOperationTransmitsTheFrame := by
  intro s hb hop ha hready
  have hpBuild : FsmState.buildRun ∈ phasesOf .send := by decide
  have hpSend : FsmState.txSend ∈ phasesOf .send := by decide
  have hs : LeftAlone .send (startedIn .buildRun s) := ⟨rfl, hop ▸ decodeOp_opcode .send, ha⟩
  obtain ⟨t, ht, hend⟩ := run_buildRun_end hs hpBuild
  have hbuild : run (s.len.toNat + 7) (enter .buildRun (startedIn .buildRun s)) = .next (enter .txSend t) :=
    hend _ (advance_enter (by rw [ht.fsm_eq]; rfl) (by decide))
  have htalone : LeftAlone .send t := ht.leftAlone (hs.enter .buildRun)
  have htready : t.txReady = true := by rw [ht.regs]; exact hready
  have htlen : t.len.toNat = s.len.toNat := by rw [ht.len_eq]; rfl
  have hsend := run_txSend_end htalone hpSend htready (advance_finish rfl)
  obtain ⟨hframe, hcsum⟩ := ht.whole
  rw [htlen, ← run_add hbuild, ← Nat.two_mul] at hsend
  refine ⟨enter .buildRun (startedIn .buildRun s), _, exec_idle hb, hsend, fun m w hm hw => ?_, ?_, hframe, hcsum,
    ht.kept, ?_, ?_⟩
  · obtain hlt | hge := Nat.lt_or_ge m (s.len.toNat + 7)
    · rw [statusByte_run_buildRun hs hpBuild hlt hw, statusByte_startedIn]
    · obtain ⟨k, rfl⟩ := Nat.exists_eq_add_of_le hge
      rw [run_add hbuild] at hw
      rw [statusByte_run_txSend htalone hpSend htready (by omega) hw, ht.statusByte_eq]
      exact statusByte_startedIn .buildRun s
  · have hlog : t.txLog = s.txLog := by rw [ht.regs]; rfl
    rw [← hlog]
    exact congrArg (t.txLog ++ ·) hframe
  · rw [statusByte_finish]
    decide
  · rw [ht.regs]
    rfl

end Sys2Proof.Machine
end

section
/-!
PROOFS. The steps of the frame reader (43_reader.md R170 to R182), and the budget of every await (R171).

Each of the reader's nine states is one AwaitVerify or AwaitTake, so its step is one of their outcomes
(`exec_awaitVerify`, `rspLenStep_cons`, `rspPayStep_cons`). In all eleven await states a clock that finds RXQ empty is
one empty sample (`stateRule_empty`), and samples add up to the timeout (`run_empty`).
-/
namespace Sys2Proof.Machine

variable {i : Instr} {s : State} {b : Byte} {rest : List Byte}

/-! ## The reader's states (30_encoding.md Table 30-1) -/

/-- The nine states of the frame reader, in order. -/
def readingStates : List FsmState := phasesOf .readResp

/-- An operation that has the reader's first state has all of them. -/
theorem readingState_mem_phasesOf {st : FsmState} (hp : FsmState.rspSof0 ∈ phasesOf i) (hst : st ∈ readingStates) :
    st ∈ phasesOf i := by
  have all_mem : FsmState.rspSof0 ∈ phasesOf i → ∀ x ∈ readingStates, x ∈ phasesOf i := by cases i <;> decide
  exact all_mem hp st hst

/-- The reader is the last phase of each operation that has it (40_dispatch.md Table 40-1). -/
theorem successor_rspEof1 (hp : FsmState.rspSof0 ∈ phasesOf i) : successor .rspEof1 i = some .idle := by
  have ends : FsmState.rspSof0 ∈ phasesOf i → successor .rspEof1 i = some .idle := by cases i <;> decide
  exact ends hp

/-! ## Await and verify (43_reader.md R170) -/

/-- The step of a state whose rule is an AwaitVerify. -/
theorem exec_awaitVerify {v : Byte} {e : ErrCode} {k : State → Res} {go : List Byte → State} (hb : s.busy = true)
    (hp : s.fsm ∈ phasesOf i) (he : recordsState e = true) (hrule : stateRule i s = awaitVerify v e k s)
    (hgo : ∀ rest, k { s with rxq := rest } = .next (go rest)) :
    exec i s = .next (verifyOutcome v e go s) := by
  rw [exec_busy hb hp, hrule, awaitVerify_outcome he fun rest _ => hgo rest]

/-- Settles O29: the four markers, the last of which ends the operation. -/
theorem markerStatesVerifyTheirBytes : Obligations.MarkerStatesVerifyTheirBytes := by
  intro s i hb hp
  have phase {st : FsmState} (hst : st ∈ readingStates) (hf : s.fsm = st) : s.fsm ∈ phasesOf i :=
    hf ▸ readingState_mem_phasesOf hp hst
  refine ⟨fun hf => ?_, fun hf => ?_, fun hf => ?_, fun hf => ?_⟩
  case refine_4 =>
    have hend : successor s.fsm i = some .idle := hf ▸ successor_rspEof1 hp
    exact exec_awaitVerify hb (phase (by decide) hf) rfl (by rw [stateRule, hf]; rfl) fun _ => advance_finish hend
  all_goals exact exec_awaitVerify hb (phase (by decide) hf) rfl (by rw [stateRule, hf]; rfl) fun _ => rfl

/-- Settles O30: the command bytes enter the checksum on a match, and the checksum byte is compared with `acc`. -/
theorem commandAndChecksumStatesVerifyTheirBytes : Obligations.CommandAndChecksumStatesVerifyTheirBytes := by
  intro s i hb hp
  have phase {st : FsmState} (hst : st ∈ readingStates) (hf : s.fsm = st) : s.fsm ∈ phasesOf i :=
    hf ▸ readingState_mem_phasesOf hp hst
  refine ⟨fun hf => ?_, fun hf => ?_, fun hf => ?_⟩
  all_goals exact exec_awaitVerify hb (phase (by decide) hf) rfl (by rw [stateRule, hf]; rfl) fun _ => rfl

/-! ## An await that sees no byte (43_reader.md R171) -/

/-- The eleven states that await a byte. -/
def awaitStates : List FsmState := .ack0 :: .ack1 :: readingStates

/-- The error code of an await that sees no byte (60_exceptions.md R241, R244). -/
def timeoutCode (st : FsmState) : ErrCode := if st = .rspPay then .incomplete else .timeout

/-- In every await state, a step that finds RXQ empty is one empty sample. -/
theorem stateRule_empty (hf : s.fsm ∈ awaitStates) (hq : s.rxq = []) :
    stateRule i s = .next (emptyOutcome (timeoutCode s.fsm) s) := by
  have verifies {v : Byte} {e : ErrCode} {k : State → Res} :
      awaitVerify v e k s = .next (emptyOutcome .timeout s) := by
    rw [awaitVerify_nil hq, emptySample_outcome rfl]
  have takes {e : ErrCode} {k : Byte → State → Res} (he : recordsState e = true) :
      awaitTake e k s = .next (emptyOutcome e s) := by
    rw [awaitTake_nil hq, emptySample_outcome he]
  cases hst : s.fsm <;> rw [hst] at hf <;> simp only [stateRule, hst]
  case ack0 | ack1 | rspSof0 | rspSof1 | rspCmdh | rspCmdl | rspCsum | rspEof0 | rspEof1 => exact verifies
  case rspLen | rspPay => exact takes rfl
  all_goals exact absurd hf (by decide)

/-- An empty sample short of the 1000th changes `poll` alone. -/
theorem emptyOutcome_of_lt {n : Nat} (hn : n < 999) (code : ErrCode) (s : State) :
    emptyOutcome code { s with poll := BitVec.ofNat 10 n } = { s with poll := BitVec.ofNat 10 (n + 1) } := by
  have hpoll : (BitVec.ofNat 10 n).toNat = n := Nat.mod_eq_of_lt (by omega)
  have hsucc : BitVec.ofNat 10 (n + 1) = BitVec.ofNat 10 n + 1 := BitVec.ofNat_add n 1
  rw [emptyOutcome, if_neg (by rw [hpoll]; omega), hsucc]

/-- A block that is left alone in an await state with an empty RXQ: 999 clocks count samples, and the 1000th fails. -/
theorem run_empty (hs : LeftAlone i s) (hp : s.fsm ∈ phasesOf i) (hf : s.fsm ∈ awaitStates) (hq : s.rxq = [])
    (hpoll : s.poll = 0) :
    (∀ j, j < 1000 → run j s = .next { s with poll := BitVec.ofNat 10 j })
      ∧ run 1000 s = .next (failedWith (timeoutCode s.fsm) s.failByte { s with poll := 1000 }) := by
  have hstep (n : Nat) : step { s with poll := BitVec.ofNat 10 n }
      = .next (emptyOutcome (timeoutCode s.fsm) { s with poll := BitVec.ofNat 10 n }) := by
    have halone : LeftAlone i { s with poll := BitVec.ofNat 10 n } := ⟨hs.busy, hs.decoded, hs.agenda⟩
    rw [halone.step_eq hp, stateRule_empty (by exact hf) (by exact hq)]
  have hstart : { s with poll := 0 } = s := by rw [← hpoll]
  have hrun (j : Nat) (hj : j < 1000) : run j s = .next { s with poll := BitVec.ofNat 10 j } := by
    have hcount := run_empty_samples (s := s)
      (fun n hn => (hstep n).trans (congrArg _ (emptyOutcome_of_lt hn _ s))) j (by omega)
    rwa [hstart] at hcount
  exact ⟨hrun, run_snoc (hrun 999 (by decide)) (hstep 999)⟩

/-- Settles O33. -/
theorem everyAwaitHasItsBudget : Obligations.EveryAwaitHasItsBudget :=
  fun _ _ hb hd hp hf hq hpoll ha => run_empty ⟨hb, hd, ha⟩ hp hf hq hpoll

/-! ## The two states that take any byte (43_reader.md R173, R178, R179) -/

theorem stateRule_rspLen (hf : s.fsm = .rspLen) : stateRule i s = rspLenStep s := by rw [stateRule, hf]

theorem stateRule_rspPay (hf : s.fsm = .rspPay) : stateRule i s = rspPayStep s := by rw [stateRule, hf]

/-- RSP_LEN takes any byte as the length; 0x00 skips the payload. -/
theorem rspLenStep_cons (hq : s.rxq = b :: rest) :
    rspLenStep s =
      .next (enter (if b = 0 then .rspCsum else .rspPay) (csumStep b { s with rxq := rest, rxLen := b })) :=
  awaitTake_cons hq

/-- RSP_PAY's work on the byte `b` that it takes before the bytes `rest`: the byte in RXBUF and in the checksum. -/
def withPayloadByte (b : Byte) (rest : List Byte) (s : State) : State :=
  csumStep b (storeAt (0x200 + s.idx.toNat) b { s with rxq := rest })

theorem byteAt_withPayloadByte (b : Byte) (rest : List Byte) (s : State) (a : Nat) :
    byteAt (withPayloadByte b rest s) a = if a = 0x200 + s.idx.toNat then b else byteAt s a :=
  byteAt_storeAt s (0x200 + s.idx.toNat) b a

/-- RSP_PAY takes any byte into RXBUF, and the last byte ends the phase. -/
theorem rspPayStep_cons (hidx : s.idx.toNat < 255) (hq : s.rxq = b :: rest) :
    rspPayStep s =
      if s.idx.toNat + 1 = s.rxLen.toNat then .next (enter .rspCsum (withPayloadByte b rest s))
      else .next { withPayloadByte b rest s with poll := 0, idx := s.idx + 1 } := by
  rw [rspPayStep, awaitTake_cons hq, bufWrite_of_lt b _ hidx]
  rfl

/-- Settles O31: the empty sample, and the two kinds of length. -/
theorem lengthStateTakesAnyByte : Obligations.LengthStateTakesAnyByte := by
  intro s i hb hf hp
  rw [exec_busy hb (hf ▸ hp)]
  refine ⟨fun hq => ?_, fun b rest hq hne => ?_, fun rest hq => ?_⟩
  · rw [stateRule_empty (hf ▸ by decide) hq, hf]
    rfl
  · rw [stateRule_rspLen hf, rspLenStep_cons hq, if_neg hne]
    rfl
  · rw [stateRule_rspLen hf, rspLenStep_cons hq]
    rfl

/-- Settles O32: the empty sample, and the byte stored, with the two ends of the step. -/
theorem payloadStateStoresOneByte : Obligations.PayloadStateStoresOneByte := by
  intro s i hb hf hp hlt
  rw [exec_busy hb (hf ▸ hp)]
  refine ⟨fun hq => ?_, fun b rest hq => ?_⟩
  · rw [stateRule_empty (hf ▸ by decide) hq, hf]
    rfl
  · have hlen := s.rxLen.isLt
    refine ⟨{ withPayloadByte b rest s with poll := 0 }, _, ?_, byteAt_withPayloadByte b rest s, rfl, rfl⟩
    rw [stateRule_rspPay hf, rspPayStep_cons (by omega) hq]
    split <;> rfl

end Sys2Proof.Machine
end

section
/-!
PROOFS. The run of the frame reader over a response frame (43_reader.md R183 to R185), for every operation that has it.

The offsets of the frame are the reader's progress: at the offset `j` the reader is in the state `stateAt`, and has read
the first `j` bytes (`FrameRead`). A clock compares the byte there (`FrameRead.compares`), or takes it
(`FrameRead.takes_length`, `FrameRead.takes_payload`), so that it reads on where RXQ has the frame's byte
(`FrameRead.reads`), fails where it has another one (`FrameRead.rejects`), and times out where it has none
(`FrameRead.starves`).
-/
namespace Sys2Proof.Machine

variable {i : Instr} {s t u : State} {n b v : Byte} {q tail : List Byte} {j k : Nat}

/-! ## The response frame, byte by byte (30_encoding.md Table 30-3) -/

theorem getElem?_middle {α : Type} (front mid back : List α) (hk : k < mid.length) :
    (front ++ mid ++ back)[front.length + k]? = mid[k]? := by
  rw [List.append_assoc, List.getElem?_append_right (Nat.le_add_right ..), Nat.add_sub_cancel_left,
    List.getElem?_append_left hk]

theorem getElem?_back {α : Type} (front mid back : List α) (k : Nat) :
    (front ++ mid ++ back)[front.length + mid.length + k]? = back[k]? := by
  rw [← List.length_append, List.getElem?_append_right (Nat.le_add_right ..), Nat.add_sub_cancel_left]

theorem responseFrame_length (hq : q.length = n.toNat) (e : Byte) : (responseFrame e n q).length = n.toNat + 8 := by
  simp [responseFrame, hq]

theorem responseFrame_header (hj : j < 5) (e n : Byte) (q : List Byte) :
    (responseFrame e n q)[j]? = [0x07, 0xF0, 0x00, e, n][j]? := by
  rw [responseFrame, List.append_assoc, List.getElem?_append_left hj]

theorem responseFrame_payload (hk : k < q.length) (e n : Byte) : (responseFrame e n q)[5 + k]? = q[k]? :=
  getElem?_middle [0x07, 0xF0, 0x00, e, n] q _ hk

theorem responseFrame_tail (hq : q.length = n.toNat) (e : Byte) (k : Nat) :
    (responseFrame e n q)[5 + n.toNat + k]? = [checksum (responseRegion e n q), 0x07, 0x0F][k]? :=
  hq ▸ getElem?_back [0x07, 0xF0, 0x00, e, n] q _ k

theorem responseRegion_length (hq : q.length = n.toNat) (e : Byte) : (responseRegion e n q).length = n.toNat + 3 := by
  rw [← hq]
  rfl

/-- The states that await the five bytes before the payload. -/
def headerStates : List FsmState := [.rspSof0, .rspSof1, .rspCmdh, .rspCmdl, .rspLen]

/-- The states that await the three bytes behind the payload. -/
def tailStates : List FsmState := [.rspCsum, .rspEof0, .rspEof1]

/-- The state of the reader that awaits the byte at the offset `j` of a response frame with `n` payload bytes. -/
def stateAt (n j : Nat) : FsmState := (headerStates ++ List.replicate n .rspPay ++ tailStates)[j]?.getD .idle

theorem stateAt_payload {n : Nat} (hk : k < n) : stateAt n (5 + k) = .rspPay := by
  have hlen : k < (List.replicate n FsmState.rspPay).length := by rwa [List.length_replicate]
  have hmid := getElem?_middle headerStates _ tailStates hlen
  rw [List.getElem?_replicate_of_lt hk] at hmid
  exact congrArg (·.getD .idle) hmid

theorem stateAt_tail (n k : Nat) : stateAt n (5 + n + k) = tailStates[k]?.getD .idle := by
  have hback := getElem?_back headerStates (List.replicate n FsmState.rspPay) tailStates k
  rw [List.length_replicate] at hback
  exact congrArg (·.getD .idle) hback

/-- Every offset of a frame with `n` payload bytes is one that is compared, the length, or in the payload. -/
theorem offset_cases (n j : Nat) : (j < 4 ∨ 5 + n ≤ j) ∨ j = 4 ∨ ∃ k < n, j = 5 + k := by
  obtain h | h | h : (j < 4 ∨ 5 + n ≤ j) ∨ j = 4 ∨ 5 ≤ j ∧ j < 5 + n := by omega
  exacts [.inl h, .inr (.inl h), .inr (.inr ⟨j - 5, by omega, by omega⟩)]

/-- The reader awaits every byte of the frame in one of its states. -/
theorem stateAt_mem {n : Nat} (hj : j < n + 8) : stateAt n j ∈ readingStates := by
  obtain h | h | h : j < 5 ∨ 5 ≤ j ∧ j < 5 + n ∨ 5 + n ≤ j ∧ j < 5 + n + 3 := by omega
  · have hheader : ∀ k < 5, headerStates[k]?.getD .idle ∈ readingStates := by decide
    rw [stateAt, List.append_assoc, List.getElem?_append_left h]
    exact hheader j h
  · obtain ⟨k, rfl⟩ := Nat.exists_eq_add_of_le h.1
    rw [stateAt_payload (by omega)]
    decide
  · have htail : ∀ k < 3, tailStates[k]?.getD .idle ∈ readingStates := by decide
    obtain ⟨k, rfl⟩ := Nat.exists_eq_add_of_le h.1
    rw [stateAt_tail]
    exact htail k (by omega)

/-! ## The frame read so far (43_reader.md R183) -/

/-- The registers after the first `j` bytes of the response frame, but for `idx` and the checksum engine. -/
def readRegs (n : Byte) (q : List Byte) (j : Nat) (s : State) : State :=
  { s with
    fsm := stateAt n.toNat j
    poll := 0
    rxq := s.rxq.drop j
    rxLen := if j < 5 then s.rxLen else n
    csum := if j < 5 + n.toNat then s.csum else checksum (responseRegion s.expCmd n q) }

/-- Since the reader was entered in `s` it has read the first `j` bytes of the response frame with the payload `q`. -/
structure FrameRead (s : State) (n : Byte) (q : List Byte) (j : Nat) (t : State) : Prop where
  regs : t = { readRegs n q j s with idx := t.idx, acc := t.acc, seen := t.seen, mem := t.mem }
  scan : scanned t ((responseRegion s.expCmd n q).take (j - 2))
  idx : 5 ≤ j → j < 5 + n.toNat → t.idx.toNat = j - 5
  stored : ∀ k, 5 + k < j → k < q.length → byteAt t (0x200 + k) = q.getD k 0
  kept : ∀ a, a < 0x200 ∨ 0x200 + n.toNat ≤ a → byteAt t a = byteAt s a

theorem readRegs_header (hj : j < 5) : readRegs n q j s =
    { s with fsm := stateAt n.toNat j, poll := 0, rxq := s.rxq.drop j } := by
  rw [readRegs, if_pos hj, if_pos (by omega)]

theorem readRegs_payload (hk : k < n.toNat) : readRegs n q (5 + k) s =
    { s with fsm := .rspPay, poll := 0, rxq := s.rxq.drop (5 + k), rxLen := n } := by
  rw [readRegs, if_neg (by omega), if_pos (by omega), stateAt_payload hk]

theorem readRegs_tail (k : Nat) : readRegs n q (5 + n.toNat + k) s =
    { s with
      fsm := tailStates[k]?.getD .idle, poll := 0, rxq := s.rxq.drop (5 + n.toNat + k), rxLen := n
      csum := checksum (responseRegion s.expCmd n q) } := by
  rw [readRegs, if_neg (by omega), if_neg (by omega), stateAt_tail]

theorem frameRead_enter (s : State) (n : Byte) (q : List Byte) : FrameRead s n q 0 (enter .rspSof0 s) where
  regs := by rw [readRegs_header (by decide)]; rfl
  scan := rfl
  idx h := absurd h (by decide)
  stored _ h := absurd h (Nat.not_lt_zero _)
  kept _ _ := rfl

namespace FrameRead

theorem fsm_eq (h : FrameRead s n q j t) : t.fsm = stateAt n.toNat j := by rw [h.regs]; rfl

theorem rxq_eq (h : FrameRead s n q j t) : t.rxq = s.rxq.drop j := by rw [h.regs]; rfl

theorem rxLen_eq (h : FrameRead s n q j t) (hj : 5 ≤ j) : t.rxLen = n := by
  rw [h.regs]
  exact if_neg (Nat.not_lt.2 hj)

theorem csum_eq (h : FrameRead s n q j t) (hj : 5 + n.toNat ≤ j) :
    t.csum = checksum (responseRegion s.expCmd n q) := by
  rw [h.regs]
  exact if_neg (Nat.not_lt.2 hj)

theorem expCmd_eq (h : FrameRead s n q j t) : t.expCmd = s.expCmd := by rw [h.regs]; rfl

theorem statusByte_eq (h : FrameRead s n q j t) : statusByte t = statusByte s := by rw [h.regs]; rfl

theorem leftAlone (h : FrameRead s n q j t) (hs : LeftAlone i s) : LeftAlone i t := by
  rw [h.regs]
  exact ⟨hs.busy, hs.decoded, hs.agenda⟩

/-- Outside the payload a step of the reader stores nothing. -/
theorem next (h : FrameRead s n q j t) (hq : q.length = n.toNat) (hj : j < 5 ∨ 5 + n.toNat ≤ j)
    (hregs : u = { readRegs n q (j + 1) s with idx := u.idx, acc := u.acc, seen := u.seen, mem := t.mem })
    (hscan : scanned u ((responseRegion s.expCmd n q).take (j + 1 - 2))) (hidx : j = 4 → 0 < n.toNat → u.idx = 0) :
    FrameRead s n q (j + 1) u := by
  have hbytes (a : Nat) : byteAt u a = byteAt t a :=
    byteAt_congr (by rw [hregs]) (by rw [hregs, h.regs]; rfl) a
  refine ⟨?_, hscan, fun hlo hhi => ?_, fun k hk hkq => ?_, fun a ha => ?_⟩
  · rw [hregs]
  · obtain rfl : j = 4 := by omega
    rw [hidx rfl (by omega)]
    rfl
  · rw [hbytes, h.stored k (by omega) hkq]
  · rw [hbytes, h.kept a ha]

/-- A step that compares a byte before the length. -/
theorem next_header (h : FrameRead s n q j t) (hq : q.length = n.toNat) (hj : j < 4)
    (hu : u = { t with
      fsm := stateAt n.toNat (j + 1), poll := 0, rxq := s.rxq.drop (j + 1), acc := u.acc, seen := u.seen })
    (hscan : scanned u ((responseRegion s.expCmd n q).take (j + 1 - 2))) : FrameRead s n q (j + 1) u := by
  refine h.next hq (.inl (by omega)) ?_ hscan fun hj' _ => by omega
  rw [hu, h.regs, readRegs_header (by omega), readRegs_header (by omega)]

/-- From offset 5 + n on the checksum engine has scanned the whole region. -/
theorem scanned_region (h : FrameRead s n q j t) (hq : q.length = n.toNat) (hj : 5 + n.toNat ≤ j) :
    scanned t (responseRegion s.expCmd n q) := by
  have hscan := h.scan
  rwa [List.take_of_length_le (by rw [responseRegion_length hq]; omega)] at hscan

/-- A step that compares a byte behind the payload. -/
theorem next_tail (h : FrameRead s n q (5 + n.toNat + k) t) (hq : q.length = n.toNat)
    (hu : u = { t with
      fsm := tailStates[k + 1]?.getD .idle, poll := 0, rxq := s.rxq.drop (5 + n.toNat + k + 1) }) :
    FrameRead s n q (5 + n.toNat + k + 1) u := by
  have hscan : scanned u (responseRegion s.expCmd n q) := hu ▸ h.scanned_region hq (by omega)
  refine h.next hq (.inr (by omega)) ?_ ?_ fun hj' _ => by omega
  · rw [hu, h.regs, readRegs_tail, Nat.add_assoc _ k 1, readRegs_tail]
  · rwa [List.take_of_length_le (by rw [responseRegion_length hq]; omega)]

end FrameRead

/-! ## A byte that is compared (43_reader.md R170, R174 to R177, R180 to R182) -/

/-- The error code of a comparison that fails, by the state that compares (60_exceptions.md R242, R243, R245). -/
def compareCode : FsmState → ErrCode
  | .rspCmdh | .rspCmdl => .unexpectedCmd
  | .rspCsum => .checksum
  | _ => .framing

/-- The next step compares the byte at the head of RXQ with `v`, and goes on with `go` on a match. -/
def Compares (v : Byte) (go : List Byte → State) (t : State) : Prop :=
  step t = .next (verifyOutcome v (compareCode t.fsm) go t)

namespace Compares

variable {go : List Byte → State} {rest : List Byte}

theorem of_state {st : FsmState} (hf : t.fsm = st) (h : step t = .next (verifyOutcome v (compareCode st) go t)) :
    Compares v go t := by
  subst hf
  exact h

theorem matched (h : Compares v go t) (hr : t.rxq = v :: rest) : step t = .next (go rest) := by
  rw [h, verifyOutcome, hr]
  exact congrArg _ (if_pos rfl)

theorem mismatched (h : Compares v go t) (hr : t.rxq = b :: rest) (hb : b ≠ v) :
    step t = .next (failedWith (compareCode t.fsm) b t) := by
  rw [h, verifyOutcome, hr]
  exact congrArg _ (if_neg hb)

end Compares

theorem LeftAlone.step_exec (h : LeftAlone i s) : step s = exec i s :=
  (step_nil h.agenda).trans (clockTick_busy h.busy h.decoded)

/-- What follows the byte at the offset `j`: one byte more has been read, or the operation ends with the frame. -/
structure ReadsOn (s : State) (n : Byte) (q : List Byte) (j : Nat) (t u : State) : Prop where
  more : j < n.toNat + 7 → FrameRead s n q (j + 1) u
  done : j = n.toNat + 7 → u = finish .none { t with rxq := s.rxq.drop (j + 1) }

namespace FrameRead

/-- The markers and the command bytes before the length. -/
theorem compares_header (h : FrameRead s n q j t) (hs : LeftAlone i s) (hp : FsmState.rspSof0 ∈ phasesOf i)
    (hq : q.length = n.toNat) (hj : j < 4) (hv : (responseFrame s.expCmd n q)[j]? = some v) :
    ∃ go, Compares v go t ∧ FrameRead s n q (j + 1) (go (s.rxq.drop (j + 1))) := by
  have halone := h.leftAlone hs
  obtain ⟨hsof0, hsof1, -, -⟩ := markerStatesVerifyTheirBytes t i halone.busy hp
  obtain ⟨hcmdh, hcmdl, -⟩ := commandAndChecksumStatesVerifyTheirBytes t i halone.busy hp
  have hf := h.fsm_eq
  rw [responseFrame_header (by omega)] at hv
  rw [← halone.step_exec] at hsof0 hsof1 hcmdh hcmdl
  obtain rfl | rfl | rfl | rfl : j = 0 ∨ j = 1 ∨ j = 2 ∨ j = 3 := by omega
  all_goals obtain rfl := Option.some.inj hv
  · exact ⟨_, .of_state hf (hsof0 hf), h.next_header hq hj rfl h.scan⟩
  · exact ⟨_, .of_state hf (hsof1 hf), h.next_header hq hj rfl h.scan⟩
  · exact ⟨_, .of_state hf (hcmdh hf), h.next_header hq hj rfl (h.scan.snoc 0x00)⟩
  · rw [h.expCmd_eq] at hcmdl
    exact ⟨_, .of_state hf (hcmdl hf), h.next_header hq hj rfl (h.scan.snoc s.expCmd)⟩

/-- The checksum and the end markers. -/
theorem compares_tail (h : FrameRead s n q (5 + n.toNat + k) t) (hs : LeftAlone i s)
    (hp : FsmState.rspSof0 ∈ phasesOf i) (hq : q.length = n.toNat)
    (hv : (responseFrame s.expCmd n q)[5 + n.toNat + k]? = some v) :
    ∃ go, Compares v go t ∧ ReadsOn s n q (5 + n.toNat + k) t (go (s.rxq.drop (5 + n.toNat + k + 1))) := by
  have halone := h.leftAlone hs
  obtain ⟨-, -, heof0, heof1⟩ := markerStatesVerifyTheirBytes t i halone.busy hp
  obtain ⟨-, -, hcsum⟩ := commandAndChecksumStatesVerifyTheirBytes t i halone.busy hp
  have hf := h.fsm_eq
  have hscan := h.scanned_region hq (by omega)
  rw [responseFrame_tail hq] at hv
  rw [stateAt_tail] at hf
  rw [← halone.step_exec] at heof0 heof1 hcsum
  obtain rfl | rfl | rfl : k = 0 ∨ k = 1 ∨ k = 2 := by
    have hk : k < 3 := (List.getElem?_eq_some_iff.1 hv).1
    omega
  · obtain rfl : t.acc = v := hscan.acc_eq.trans (Option.some.inj hv)
    exact ⟨_, .of_state hf (hcsum hf), fun _ => h.next_tail hq rfl, fun hlast => by omega⟩
  · obtain rfl := Option.some.inj hv
    exact ⟨_, .of_state hf (heof0 hf), fun _ => h.next_tail hq rfl, fun hlast => by omega⟩
  · obtain rfl := Option.some.inj hv
    exact ⟨_, .of_state hf (heof1 hf), fun hmore => by omega, fun _ => rfl⟩

end FrameRead

/-! ## A byte that is taken (43_reader.md R173, R178, R179) -/

theorem responseRegion_take_succ (hv : q[k]? = some v) (e : Byte) :
    (responseRegion e n q).take (5 + k + 1 - 2) = (responseRegion e n q).take (5 + k - 2) ++ [v] := by
  have hbyte : (responseRegion e n q)[k + 3]? = some v := hv
  rw [show 5 + k + 1 - 2 = k + 3 + 1 by omega, show 5 + k - 2 = k + 3 by omega, List.take_add_one, hbyte,
    Option.toList_some]

namespace FrameRead

/-- The length: any byte, and 0x00 skips the payload. -/
theorem takes_length (h : FrameRead s n q 4 t) (hs : LeftAlone i s) (hp : FsmState.rspSof0 ∈ phasesOf i)
    (hq : q.length = n.toNat) (hr : t.rxq = n :: s.rxq.drop 5) : ∃ u, step t = .next u ∧ FrameRead s n q 5 u := by
  have halone := h.leftAlone hs
  obtain ⟨-, hsome, hzero⟩ :=
    lengthStateTakesAnyByte t i halone.busy h.fsm_eq (readingState_mem_phasesOf hp (by decide))
  rw [halone.step_exec]
  have hscan := h.scan.snoc n
  by_cases hn : n = 0x00
  · subst hn
    obtain rfl : q = [] := List.eq_nil_of_length_eq_zero hq
    have hstep := hzero _ hr
    rw [show (csumStep 0x00 t).acc = checksum (responseRegion s.expCmd 0x00 []) from hscan.acc_eq] at hstep
    refine ⟨_, hstep, h.next hq (.inl (by decide)) ?_ hscan fun _ hpos => absurd hpos (by decide)⟩
    rw [h.regs]
    rfl
  · have hpos : 0 < n.toNat := Nat.pos_of_ne_zero fun h0 => hn (BitVec.eq_of_toNat_eq h0)
    refine ⟨_, hsome n _ hr hn, h.next hq (.inl (by decide)) ?_ hscan fun _ _ => rfl⟩
    rw [h.regs, readRegs_header (by decide), readRegs_payload (k := 0) hpos]
    rfl

/-- A step that stores the payload's byte at the index `k`. -/
theorem stores (h : FrameRead s n q (5 + k) t) (hk : k < n.toNat) (hv : q[k]? = some v)
    (hbytes : ∀ a, byteAt u a = if a = 0x200 + k then v else byteAt t a)
    (hregs : u = { readRegs n q (5 + k + 1) s with idx := u.idx, acc := u.acc, seen := u.seen, mem := u.mem })
    (hscan : scanned u ((responseRegion s.expCmd n q).take (5 + k + 1 - 2)))
    (hidx : k + 1 < n.toNat → u.idx.toNat = k + 1) : FrameRead s n q (5 + k + 1) u := by
  refine ⟨hregs, hscan, fun _ hhi => ?_, fun k' hk' hkq => ?_, fun a ha => ?_⟩
  · rw [hidx (by omega)]
    omega
  · rw [hbytes]
    obtain rfl | hne := eq_or_ne k' k
    · rw [if_pos rfl, List.getD_eq_getElem?_getD, hv, Option.getD_some]
    · rw [if_neg (by omega), h.stored k' (by omega) hkq]
  · rw [hbytes, if_neg (by omega), h.kept a ha]

/-- A byte of the payload: any byte, and the last one ends the phase. -/
theorem takes_payload (h : FrameRead s n q (5 + k) t) (hs : LeftAlone i s) (hp : FsmState.rspSof0 ∈ phasesOf i)
    (hq : q.length = n.toNat) (hv : q[k]? = some v) (hr : t.rxq = v :: s.rxq.drop (5 + k + 1)) :
    ∃ u, step t = .next u ∧ FrameRead s n q (5 + k + 1) u := by
  have hk : k < n.toNat := hq ▸ (List.getElem?_eq_some_iff.1 hv).1
  have hn := n.isLt
  have halone := h.leftAlone hs
  have hf : t.fsm = .rspPay := h.fsm_eq.trans (stateAt_payload hk)
  have hidx : t.idx.toNat = k := (h.idx (by omega) (by omega)).trans (by omega)
  have hlen : t.rxLen = n := by rw [h.regs, readRegs_payload hk]
  obtain ⟨-, htakes⟩ := payloadStateStoresOneByte t i halone.busy hf (readingState_mem_phasesOf hp (by decide))
    (by rwa [hidx, hlen])
  obtain ⟨w, u, hu, hbytes, hw, hend⟩ := htakes v _ hr
  have hscan : scanned w ((responseRegion s.expCmd n q).take (5 + k + 1 - 2)) := by
    rw [responseRegion_take_succ hv, hw]
    exact h.scan.snoc v
  have hregs : w = { s with
      fsm := .rspPay, poll := 0, rxq := s.rxq.drop (5 + k + 1), rxLen := n
      idx := t.idx, acc := w.acc, seen := w.seen, mem := w.mem } := by
    rw [hw, h.regs, readRegs_payload hk]
    rfl
  rw [hidx] at hbytes hend
  rw [hlen] at hend
  refine ⟨u, halone.step_exec.trans hu, ?_⟩
  obtain hlast | hmore := Nat.eq_or_lt_of_le (Nat.succ_le_of_lt hk)
  · have hacc : w.acc = checksum (responseRegion s.expCmd n q) := by
      rw [hscan.acc_eq, List.take_of_length_le (by rw [responseRegion_length hq]; omega)]
    replace hend := (hend.trans (if_pos hlast)).trans (congrArg (fun c => { w with fsm := .rspCsum, csum := c }) hacc)
    refine h.stores hk hv (by rw [hend]; exact hbytes) ?_ (by rw [hend]; exact hscan) fun hlt => by omega
    rw [hend, hregs, show 5 + k + 1 = 5 + n.toNat + 0 by omega, readRegs_tail]
    rfl
  · rw [if_neg hmore.ne] at hend
    refine h.stores hk hv (by rw [hend]; exact hbytes) ?_ (by rw [hend]; exact hscan) fun _ => ?_
    · rw [hend, hregs, Nat.add_assoc 5 k 1, readRegs_payload hmore]
    · rw [hend]
      change (t.idx + 1).toNat = k + 1
      rw [toNat_idx_succ (by omega), hidx]

/-- The byte at the offset `j` is at the head of RXQ. -/
theorem rxq_cons (h : FrameRead s n q j t) (hb : s.rxq[j]? = some b) : t.rxq = b :: s.rxq.drop (j + 1) := by
  obtain ⟨hj, rfl⟩ := List.getElem?_eq_some_iff.1 hb
  rw [h.rxq_eq, List.drop_eq_getElem_cons hj]

/-- The bytes of the frame but for the length and the payload are compared. -/
theorem compares (h : FrameRead s n q j t) (hs : LeftAlone i s) (hp : FsmState.rspSof0 ∈ phasesOf i)
    (hq : q.length = n.toNat) (hj : j < 4 ∨ 5 + n.toNat ≤ j) (hv : (responseFrame s.expCmd n q)[j]? = some v) :
    ∃ go, Compares v go t ∧ ReadsOn s n q j t (go (s.rxq.drop (j + 1))) := by
  obtain hlt | hge := hj
  · obtain ⟨go, hgo, hnext⟩ := h.compares_header hs hp hq hlt hv
    exact ⟨go, hgo, fun _ => hnext, fun hlast => by omega⟩
  · obtain ⟨k, rfl⟩ := Nat.exists_eq_add_of_le hge
    exact h.compares_tail hs hp hq hv

/-- Where RXQ has the frame's byte, a clock reads it. -/
theorem reads (h : FrameRead s n q j t) (hs : LeftAlone i s) (hp : FsmState.rspSof0 ∈ phasesOf i)
    (hq : q.length = n.toNat) (hj : j < n.toNat + 8) (hagree : s.rxq[j]? = (responseFrame s.expCmd n q)[j]?) :
    ∃ u, step t = .next u ∧ ReadsOn s n q j t u := by
  obtain ⟨v, hv⟩ : ∃ v, (responseFrame s.expCmd n q)[j]? = some v :=
    ⟨_, List.getElem?_eq_getElem (by rwa [responseFrame_length hq])⟩
  have hr := h.rxq_cons (hagree.trans hv)
  obtain hcmp | rfl | ⟨k, hk, rfl⟩ := offset_cases n.toNat j
  · obtain ⟨go, hgo, hnext⟩ := h.compares hs hp hq hcmp hv
    exact ⟨_, hgo.matched hr, hnext⟩
  · obtain rfl := Option.some.inj hv
    obtain ⟨u, hu, hnext⟩ := h.takes_length hs hp hq hr
    exact ⟨u, hu, fun _ => hnext, fun hlast => by omega⟩
  · rw [responseFrame_payload (hq ▸ hk)] at hv
    obtain ⟨u, hu, hnext⟩ := h.takes_payload hs hp hq hv hr
    exact ⟨u, hu, fun _ => hnext, fun hlast => by omega⟩

/-- Where RXQ has another byte than the frame's, and the byte is compared, a clock fails. -/
theorem rejects (h : FrameRead s n q j t) (hs : LeftAlone i s) (hp : FsmState.rspSof0 ∈ phasesOf i)
    (hq : q.length = n.toNat) (hj : j < 4 ∨ 5 + n.toNat ≤ j) (hb : s.rxq[j]? = some b)
    (hv : (responseFrame s.expCmd n q)[j]? = some v) (hne : b ≠ v) :
    step t = .next (failedWith (compareCode t.fsm) b t) := by
  obtain ⟨go, hgo, -⟩ := h.compares hs hp hq hj hv
  exact hgo.mismatched (h.rxq_cons hb) hne

theorem fsm_mem (h : FrameRead s n q j t) (hj : j < n.toNat + 8) : t.fsm ∈ readingStates :=
  h.fsm_eq ▸ stateAt_mem hj

/-- Where RXQ has no byte, 1000 clocks end in the timeout. -/
theorem starves (h : FrameRead s n q j t) (hs : LeftAlone i s) (hp : FsmState.rspSof0 ∈ phasesOf i)
    (hj : j < n.toNat + 8) (hr : t.rxq = []) :
    run 1000 t = .next (failedWith (timeoutCode t.fsm) t.failByte { t with poll := 1000 }) := by
  have hmem := h.fsm_mem hj
  exact (run_empty (h.leftAlone hs) (readingState_mem_phasesOf hp hmem)
    (List.mem_cons_of_mem _ (List.mem_cons_of_mem _ hmem)) hr (by rw [h.regs]; rfl)).2

end FrameRead

/-! ## The run of the reader (43_reader.md R184, R185) -/

/-- The first `j` bytes of RXQ are those of the response frame with the payload `q`. -/
def Agrees (s : State) (n : Byte) (q : List Byte) (j : Nat) : Prop :=
  ∀ k < j, s.rxq[k]? = (responseFrame s.expCmd n q)[k]?

theorem agrees_of_append (hr : s.rxq = responseFrame s.expCmd n q ++ tail) (hq : q.length = n.toNat) :
    Agrees s n q (n.toNat + 8) := fun k hk => by
  rw [hr, List.getElem?_append_left (by rwa [responseFrame_length hq])]

/-- The first `j` bytes of the frame, and what follows them in RXQ. -/
theorem Agrees.rxq_eq (h : Agrees s n q j) : s.rxq = (responseFrame s.expCmd n q).take j ++ s.rxq.drop j := by
  have htake : s.rxq.take j = (responseFrame s.expCmd n q).take j := List.ext_getElem? fun k => by
    rw [List.getElem?_take, List.getElem?_take]
    split
    · next hk => exact h k hk
    · rfl
  rw [← htake, List.take_append_drop]

/-- RXQ begins with the whole frame, or there is a first byte that it does not have. -/
theorem agrees_or_differs (s : State) (n : Byte) (q : List Byte) (m : Nat) :
    Agrees s n q m ∨ ∃ j < m, Agrees s n q j ∧ s.rxq[j]? ≠ (responseFrame s.expCmd n q)[j]? := by
  induction m with
  | zero => exact .inl fun k hk => absurd hk (Nat.not_lt_zero k)
  | succ m ih =>
    obtain hm | ⟨j, hj, hdiffers⟩ := ih
    · by_cases hbyte : s.rxq[m]? = (responseFrame s.expCmd n q)[m]?
      · exact .inl fun k hk => (Nat.lt_succ_iff_lt_or_eq.1 hk).elim (hm k) fun hkm => hkm ▸ hbyte
      · exact .inr ⟨m, Nat.lt_succ_self m, hm, hbyte⟩
    · exact .inr ⟨j, Nat.lt_succ_of_lt hj, hdiffers⟩

/-- As long as RXQ has the frame's bytes, the reader reads one each clock. -/
theorem run_frameRead (hs : LeftAlone i s) (hp : FsmState.rspSof0 ∈ phasesOf i) (hq : q.length = n.toNat)
    (hj : j ≤ n.toNat + 7) (ha : Agrees s n q j) :
    ∃ t, run j (enter .rspSof0 s) = .next t ∧ FrameRead s n q j t := by
  induction j with
  | zero => exact ⟨_, rfl, frameRead_enter s n q⟩
  | succ j ih =>
    obtain ⟨t, hrun, ht⟩ := ih (by omega) fun k hk => ha k (Nat.lt_succ_of_lt hk)
    obtain ⟨u, hu, hnext⟩ := ht.reads hs hp hq (by omega) (ha j (Nat.lt_succ_self j))
    exact ⟨u, run_snoc hrun hu, hnext.more (by omega)⟩

/-- A response frame at the head of RXQ is read to its end, in n + 8 clocks. -/
theorem run_reader_accepts (hs : LeftAlone i s) (hp : FsmState.rspSof0 ∈ phasesOf i) (hq : q.length = n.toNat)
    (ha : Agrees s n q (n.toNat + 8)) :
    ∃ t, FrameRead s n q (n.toNat + 7) t
      ∧ run (n.toNat + 8) (enter .rspSof0 s) = .next (finish .none { t with rxq := s.rxq.drop (n.toNat + 8) }) := by
  obtain ⟨t, hrun, ht⟩ := run_frameRead hs hp hq le_rfl fun k hk => ha k (Nat.lt_succ_of_lt hk)
  obtain ⟨u, hu, hnext⟩ := ht.reads hs hp hq (by omega) (ha _ (by omega))
  exact ⟨t, ht, hnext.done rfl ▸ run_snoc hrun hu⟩

/-- STATUS holds its value as long as the reader reads. -/
theorem statusByte_run_reader (hs : LeftAlone i s) (hp : FsmState.rspSof0 ∈ phasesOf i) (hq : q.length = n.toNat)
    (ha : Agrees s n q j) (hj : j ≤ n.toNat + 7) (hrun : run j (enter .rspSof0 s) = .next t) :
    statusByte t = statusByte s := by
  obtain ⟨w, hw, hread⟩ := run_frameRead hs hp hq hj ha
  obtain rfl := Host.Outcome.next.inj (hw.symm.trans hrun)
  exact hread.statusByte_eq

/-- The payload that has been read is in RXBUF. -/
theorem FrameRead.bufSpan_eq (h : FrameRead s n q j t) (hq : q.length = n.toNat) (hj : 5 + n.toNat ≤ j) :
    bufSpan .rx n.toNat t = q := by
  refine List.ext_getElem (by rw [bufSpan_length, hq]) fun k hk hkq => ?_
  rw [bufSpan_getElem, bufBase_rx, h.stored k (by omega) hkq, List.getD_eq_getElem q 0 hkq]

end Sys2Proof.Machine
end

section
/-!
PROOFS. The operation READ_RESP on a queue to which nothing is added (43_reader.md R184 to R187).

The bytes that wait in RXQ propose one response frame (`proposedLength`, `proposedPayload`), which differs from them at
most in its compared bytes. So every run of the reader ends in one of three ways (`ReaderEnd`, `exists_readerEnd`): the
whole frame was read, a compared byte was not the frame's, or no byte came. A run has one idle end
(`run_idle_unique`), so what holds of the three ways holds of every end of READ_RESP.
-/
namespace Sys2Proof.Machine

variable {i : Instr} {s t u : State} {n b : Byte} {q : List Byte} {j : Nat}

/-! ## Start, and a frame that is accepted (43_reader.md R184, R185) -/

/-- The state in which the reader's run begins, but for the entry into RSP_SOF0 (40_dispatch.md R110). -/
def readerStarted (s : State) : State := { startedIn .rspSof0 s with rxLen := 0x00 }

/-- Start of READ_RESP enters RSP_SOF0. -/
theorem exec_readResp (hb : s.busy = false) : exec .readResp s = .next (enter .rspSof0 (readerStarted s)) :=
  exec_idle hb

theorem leftAlone_readerStarted (hop : s.op = 0x06) (ha : s.agenda = []) : LeftAlone .readResp (readerStarted s) :=
  ⟨rfl, hop ▸ decodeOp_opcode .readResp, ha⟩

theorem rspSof0_mem_readResp : FsmState.rspSof0 ∈ phasesOf .readResp := by decide

/-- Settles O41: the run of the reader over the frame, and Finish. -/
theorem readRespAcceptsAResponseFrame : Obligations.ReadRespAcceptsAResponseFrame := by
  intro s n q tail hb hop ha hq hr
  have hs := leftAlone_readerStarted hop ha
  have hp := rspSof0_mem_readResp
  have hagree : Agrees (readerStarted s) n q (n.toNat + 8) := agrees_of_append (tail := tail) hr hq
  have htail : s.rxq.drop (n.toNat + 8) = tail := by
    rw [hr, ← responseFrame_length hq s.expCmd, List.drop_left]
  obtain ⟨t, ht, hrun⟩ := run_reader_accepts hs hp hq hagree
  refine ⟨_, _, exec_readResp hb, hrun, fun m w hm hw => ?_, ht.rxLen_eq (by omega), ht.bufSpan_eq hq (by omega),
    ht.csum_eq (by omega), htail, ht.kept, ?_, ?_⟩
  · rw [statusByte_run_reader hs hp hq (fun k hk => hagree k (by omega)) (by omega) hw]
    exact statusByte_startedIn .rspSof0 s
  · rw [statusByte_finish]
    decide
  · rw [ht.regs]
    rfl

/-! ## The frame that RXQ proposes -/

/-- The length byte of the frame that the bytes `r` begin, if they reach it. -/
def proposedLength (r : List Byte) : Byte := r.getD 4 0

/-- The payload of the frame that the bytes `r` begin, as far as they reach it, and zeros behind. -/
def proposedPayload (r : List Byte) : List Byte := (List.range (proposedLength r).toNat).map fun k => r.getD (5 + k) 0

theorem proposedPayload_length (r : List Byte) : (proposedPayload r).length = (proposedLength r).toNat := by
  rw [proposedPayload, List.length_map, List.length_range]

theorem getD_of_getElem? {r : List Byte} (h : r[j]? = some b) : r.getD j 0 = b := by
  rw [List.getD_eq_getElem?_getD, h, Option.getD_some]

/-- The proposed frame differs from RXQ in none but its compared bytes. -/
theorem compared_of_differs {r : List Byte} {e : Byte} (hb : r[j]? = some b)
    (hne : r[j]? ≠ (responseFrame e (proposedLength r) (proposedPayload r))[j]?) :
    j < 4 ∨ 5 + (proposedLength r).toNat ≤ j := by
  obtain hcmp | rfl | ⟨k, hk, rfl⟩ := offset_cases (proposedLength r).toNat j
  · exact hcmp
  · refine absurd ?_ hne
    rw [responseFrame_header (by decide), hb, ← getD_of_getElem? hb]
    rfl
  · refine absurd ?_ hne
    rw [responseFrame_payload (by rwa [proposedPayload_length]), proposedPayload, List.getElem?_map,
      List.getElem?_range hk, Option.map_some, getD_of_getElem? hb, hb]

/-! ## How the reader ends (43_reader.md R185, R186) -/

/-- The ends of a run of the reader over the response frame with the payload `q`: the whole frame was read, a byte was
not the frame's, or no byte came. -/
inductive ReaderEnd (s : State) (n : Byte) (q : List Byte) : State → Prop where
  | accepted {t : State} (ha : Agrees s n q (n.toNat + 8)) (ht : FrameRead s n q (n.toNat + 7) t) :
    ReaderEnd s n q (finish .none { t with rxq := s.rxq.drop (n.toNat + 8) })
  | rejected {j : Nat} {b : Byte} {t : State} (hj : j < n.toNat + 8) (ha : Agrees s n q j) (ht : FrameRead s n q j t)
    (hb : s.rxq[j]? = some b) (hne : s.rxq[j]? ≠ (responseFrame s.expCmd n q)[j]?) :
    ReaderEnd s n q (failedWith (compareCode t.fsm) b t)
  | starved {j : Nat} {t : State} (hj : j < n.toNat + 8) (ha : Agrees s n q j) (ht : FrameRead s n q j t)
    (hr : t.rxq = []) : ReaderEnd s n q (failedWith (timeoutCode t.fsm) t.failByte { t with poll := 1000 })

/-- Over a queue to which nothing is added the reader ends in one of the three ways. -/
theorem exists_readerEnd (hs : LeftAlone i s) (hp : FsmState.rspSof0 ∈ phasesOf i) :
    ∃ (n : Byte) (q : List Byte) (m : Nat) (u : State), q.length = n.toNat
      ∧ run m (enter .rspSof0 s) = .next u ∧ ReaderEnd s n q u := by
  have hq := proposedPayload_length s.rxq
  refine ⟨proposedLength s.rxq, proposedPayload s.rxq, ?_⟩
  obtain ha | ⟨j, hj, ha, hne⟩ :=
    agrees_or_differs s (proposedLength s.rxq) (proposedPayload s.rxq) ((proposedLength s.rxq).toNat + 8)
  · obtain ⟨t, ht, hrun⟩ := run_reader_accepts hs hp hq ha
    exact ⟨_, _, hq, hrun, .accepted ha ht⟩
  · obtain ⟨t, hrun, ht⟩ := run_frameRead hs hp hq (Nat.le_of_lt_succ hj) ha
    cases hb : s.rxq[j]? with
    | none =>
      have hr : t.rxq = [] := ht.rxq_eq.trans (List.drop_eq_nil_of_le (List.getElem?_eq_none_iff.1 hb))
      exact ⟨_, _, hq, (run_add hrun).trans (ht.starves hs hp hj hr), .starved hj ha ht hr⟩
    | some b =>
      have hv := List.getElem?_eq_getElem (l := responseFrame s.expCmd _ (proposedPayload s.rxq)) (i := j)
        (by rwa [responseFrame_length hq])
      have hstep := ht.rejects hs hp hq (compared_of_differs hb hne) hb hv fun h => hne (by rw [hb, h, hv])
      exact ⟨_, _, hq, run_snoc hrun hstep, .rejected hj ha ht hb hne⟩

theorem ReaderEnd.idle (h : ReaderEnd s n q u) : u.busy = false := by cases h <;> rfl

theorem run_keeps_empty_agenda {m : Nat} {s t : State} (ha : s.agenda = []) (h : run m s = .next t) :
    t.agenda = [] := by
  induction m generalizing s with
  | zero => rwa [← Host.Outcome.next.inj h]
  | succ m ih =>
    obtain ⟨u, hs, hu⟩ := run_succ_next h
    rw [step_nil ha] at hs
    exact ih ((clockTick_agenda hs).trans ha) hu

/-- With an empty agenda a run has one idle end. -/
theorem run_idle_unique {m m' : Nat} {s t u : State} (ha : s.agenda = []) (ht : run m s = .next t)
    (hu : run m' s = .next u) (hbt : t.busy = false) (hbu : u.busy = false) : t = u := by
  wlog hle : m ≤ m' generalizing m m' t u
  · exact (this hu ht hbu hbt (Nat.le_of_not_le hle)).symm
  · obtain ⟨k, rfl⟩ := Nat.exists_eq_add_of_le hle
    rw [run_add ht, run_idle hbt (run_keeps_empty_agenda ha ht)] at hu
    exact Host.Outcome.next.inj hu

/-- Whenever READ_RESP is at its end, the end is one of the three ways. -/
theorem readResp_end {m : Nat} (hb : s.busy = false) (hop : s.op = 0x06) (ha : s.agenda = [])
    (ht : exec .readResp s = .next t) (hu : run m t = .next u) (hbu : u.busy = false) :
    ∃ (n : Byte) (q : List Byte), q.length = n.toNat ∧ ReaderEnd (readerStarted s) n q u := by
  obtain rfl := Host.Outcome.next.inj ((exec_readResp hb).symm.trans ht)
  obtain ⟨n, q, m', w, hq, hw, hend⟩ := exists_readerEnd (leftAlone_readerStarted hop ha) rspSof0_mem_readResp
  obtain rfl := run_idle_unique (s := enter .rspSof0 (readerStarted s)) ha hw hu hend.idle hbu
  exact ⟨n, q, hq, hend⟩

/-- A success has read a whole frame, which is what it consumed. -/
theorem ReaderEnd.frame_of_ok (h : ReaderEnd s n q u) (hq : q.length = n.toNat) (hok : u.ok = true) :
    s.rxq = responseFrame s.expCmd n q ++ u.rxq ∧ u.rxLen = n ∧ responsePayload u = q := by
  cases h with
  | @accepted t ha ht =>
    have hlen := ht.rxLen_eq (by omega)
    have hspan : bufSpan .rx t.rxLen.toNat t = q := by rw [hlen, ht.bufSpan_eq hq (by omega)]
    have hr := ha.rxq_eq
    rw [List.take_of_length_le (responseFrame_length hq _).le] at hr
    exact ⟨hr, hlen, hspan⟩
  | rejected | starved => cases hok

/-- Settles O42: a success is the one of the three ends that has read a whole frame, and a whole frame is accepted. -/
theorem readRespSucceedsExactlyOnResponseFrames : Obligations.ReadRespSucceedsExactlyOnResponseFrames := by
  intro s t hb hop ha ht
  have hend {m : Nat} {u : State} (hu : run m t = .next u) (hbu : u.busy = false) (hok : u.ok = true) :
      ∃ (n : Byte) (q : List Byte), q.length = n.toNat
        ∧ s.rxq = responseFrame s.expCmd n q ++ u.rxq ∧ u.rxLen = n ∧ responsePayload u = q := by
    obtain ⟨n, q, hq, hend⟩ := readResp_end hb hop ha ht hu hbu
    exact ⟨n, q, hq, hend.frame_of_ok hq hok⟩
  refine ⟨⟨fun ⟨m, u, hu, hbu, hok⟩ => ?_, fun ⟨n, q, tail, hq, hr⟩ => ?_⟩, fun m u => hend⟩
  · obtain ⟨n, q, hq, hr, -⟩ := hend hu hbu hok
    exact ⟨n, q, u.rxq, hq, hr⟩
  · obtain ⟨w, -, hrun⟩ := run_reader_accepts (leftAlone_readerStarted hop ha) rspSof0_mem_readResp hq
      (agrees_of_append (s := readerStarted s) hr hq)
    obtain rfl := Host.Outcome.next.inj ((exec_readResp hb).symm.trans ht)
    exact ⟨_, _, hrun, rfl, rfl⟩

/-! ## What a failure leaves (43_reader.md R186; 60_exceptions.md R248) -/

/-- What the reader leaves in the registers, RXBUF and RXQ where it fails at the offset `j` (43_reader.md R186). -/
structure FailedAt (s : State) (n : Byte) (q : List Byte) (j : Nat) (u : State) : Prop where
  rxq : s.rxq = (responseFrame s.expCmd n q).take j ++ u.rxq
  rxLen : u.rxLen = if j < 5 then s.rxLen else n
  stored : ∀ k, 5 + k < j → k < q.length → byteAt u (0x200 + k) = q.getD k 0
  csum : u.csum = if j < 5 + n.toNat then s.csum else checksum (responseRegion s.expCmd n q)

/-- A failure leaves what was read as it is. -/
theorem FrameRead.failedAt (h : FrameRead s n q j t) (ha : Agrees s n q j) (code : ErrCode) (b : Byte)
    (poll : PollCount) : FailedAt s n q j (failedWith code b { t with poll }) where
  rxq := ha.rxq_eq.trans (by rw [← h.rxq_eq]; rfl)
  rxLen := by rw [h.regs]; rfl
  stored := h.stored
  csum := by rw [h.regs]; rfl

theorem compareCode_ne (st : FsmState) : compareCode st ≠ .timeout ∧ compareCode st ≠ .incomplete
    ∧ compareCode st ≠ .none ∧ compareCode st ≠ .illegalOp := by
  cases st <;> decide

theorem timeoutCode_ne (st : FsmState) : timeoutCode st ≠ .framing ∧ timeoutCode st ≠ .unexpectedCmd
    ∧ timeoutCode st ≠ .checksum ∧ timeoutCode st ≠ .none ∧ timeoutCode st ≠ .illegalOp := by
  cases st <;> decide

/-- A failure stopped before the end of the frame, at a byte that is still in RXQ or at an empty RXQ. -/
theorem ReaderEnd.failure (h : ReaderEnd s n q u) (hok : u.ok = false) :
    ∃ j < n.toNat + 8, FailedAt s n q j u
      ∧ ((∃ st rest, u.err = compareCode st ∧ u.rxq = u.failByte :: rest)
        ∨ ∃ st, u.err = timeoutCode st ∧ u.rxq = [] ∧ u.failByte = s.failByte) := by
  cases h with
  | accepted => cases hok
  | @rejected j b t hj ha ht hb _ =>
    exact ⟨j, hj, ht.failedAt ha _ _ t.poll, .inl ⟨t.fsm, _, rfl, ht.rxq_cons hb⟩⟩
  | @starved j t hj ha ht hr =>
    exact ⟨j, hj, ht.failedAt ha _ _ 1000, .inr ⟨t.fsm, rfl, hr, by rw [ht.regs]; rfl⟩⟩

/-- Settles O43: a failure is one of the two ends that stop before the end of the frame. -/
theorem readRespFailsOnABeginningOfAFrame : Obligations.ReadRespFailsOnABeginningOfAFrame := by
  intro s t u m hb hop ha ht hu hbu hok
  obtain ⟨n, q, hq, hend⟩ := readResp_end hb hop ha ht hu hbu
  obtain ⟨j, hj, hfail, hhow⟩ := hend.failure hok
  have hlen : ((responseFrame s.expCmd n q).take j).length = j := by
    rw [List.length_take, responseFrame_length hq]
    omega
  refine ⟨⟨n, q, (responseFrame s.expCmd n q).take j, (responseFrame s.expCmd n q).drop j, hq,
    List.take_append_drop .., hfail.rxq, ?_⟩, ?_⟩
  · rw [hlen, hq]
    exact ⟨fun h => hfail.rxLen.trans (if_pos h), fun h => hfail.rxLen.trans (if_neg (Nat.not_lt.2 h)),
      hq ▸ hfail.stored, fun h => hfail.csum.trans (if_pos h), fun h => hfail.csum.trans (if_neg (Nat.not_lt.2 h))⟩
  · obtain ⟨st, rest, herr, hr⟩ | ⟨st, herr, hr, hbyte⟩ := hhow
    · obtain ⟨htimeout, hincomplete, hnone, hillegal⟩ := compareCode_ne st
      rw [herr]
      exact ⟨fun _ => ⟨rest, hr⟩, fun h => (h.elim htimeout hincomplete).elim, hnone, hillegal⟩
    · obtain ⟨hframing, hcmd, hcsum, hnone, hillegal⟩ := timeoutCode_ne st
      rw [herr]
      exact ⟨fun h => (h.elim hframing fun h => h.elim hcmd hcsum).elim, fun _ => ⟨hr, hbyte⟩, hnone, hillegal⟩

/-! ## The builder's frame read back (43_reader.md R187) -/

/-- A 0x00 before the region leaves the checksum as it is. -/
theorem checksum_zero_cons (bs : List Byte) : checksum (0x00 :: bs) = checksum bs :=
  congrArg Prod.fst (csumScan_zero 0xAD false bs)

/-- A request frame with 0x00 put before its command byte is a response frame. -/
theorem responseFrame_eq_frame (c n : Byte) (p : List Byte) :
    (frame c n p).take 2 ++ 0x00 :: (frame c n p).drop 2 = responseFrame c n p := by
  have hsum : checksum (responseRegion c n p) = checksum (c :: n :: p) := checksum_zero_cons _
  rw [responseFrame, hsum]
  rfl

/-- A request frame begins with the start marker of a response frame. -/
theorem agrees_frame {c : Byte} {p : List Byte} (hr : s.rxq = frame c n p) : Agrees s 0x00 [] 2 := fun k hk => by
  rw [hr]
  obtain rfl | rfl : k = 0 ∨ k = 1 := by omega
  · rfl
  · rfl

/-- Settles O44: the frame with the 0x00 is a response frame, and the frame itself is rejected at RSP_CMDH. -/
theorem builtFramesRoundTripThroughTheReader : Obligations.BuiltFramesRoundTripThroughTheReader := by
  intro s c n p hb hop ha hc hp
  refine ⟨checksum_zero_cons _, fun hr => ?_, fun hr hne => ?_⟩
  · have hframe : s.rxq = responseFrame s.expCmd n p ++ [] := by
      rw [hr, responseFrame_eq_frame, hc, List.append_nil]
    obtain ⟨t, u, ht, hu, -, hlen, hspan, -, hend, -, hstatus, -⟩ :=
      readRespAcceptsAResponseFrame s n p [] hb hop ha hp hframe
    exact ⟨t, u, ht, hu, hstatus, hlen, hspan, hend⟩
  · have hs := leftAlone_readerStarted hop ha
    obtain ⟨t, hrun, ht⟩ := run_frameRead (n := 0x00) (q := []) hs rspSof0_mem_readResp rfl (by decide)
      (agrees_frame (s := readerStarted s) hr)
    have hbyte : (readerStarted s).rxq[2]? = some c := by
      change s.rxq[2]? = some c
      rw [hr]
      rfl
    have hstep := ht.rejects hs rspSof0_mem_readResp rfl (.inl (by decide)) hbyte rfl hne
    refine ⟨_, _, exec_readResp hb, run_snoc hrun hstep, ?_, ?_, rfl, ?_⟩
    · rw [ht.fsm_eq]
      change statusOf false true false .unexpectedCmd = 0x32
      decide
    · rw [failedWith_failState, ht.fsm_eq]
      rfl
    · exact ht.rxq_eq.trans (congrArg _ hr)

end Sys2Proof.Machine
end

section
/-!
PROOFS. A block step neither reads nor writes the agenda, so clocks that stand on the agenda do what the clocks of an
empty agenda do (log 7).

Every state rule is built from updates, tests and reads of other fields and from Advance, and each of these ways of
building keeps `IgnoresAgenda`.
-/
namespace Sys2Proof.Machine

variable {i : Instr} {s t : State} {f g : State → Res} {upd : State → State}

/-! ## Meanings that ignore the agenda -/

/-- The state with the moves `ms` to come. -/
def setAgenda (ms : List Move) (s : State) : State := { s with agenda := ms }

/-- The answer with the moves `ms` to come. -/
def answerWithAgenda (ms : List Move) : Res → Res
  | .next t => .next (setAgenda ms t)
  | .fault e => .fault e
  | .refused e => .refused e

/-- The meaning `f` neither reads nor writes the agenda. -/
def IgnoresAgenda (f : State → Res) : Prop := ∀ ms s, f (setAgenda ms s) = answerWithAgenda ms (f s)

namespace IgnoresAgenda

theorem update (hupd : ∀ ms s, upd (setAgenda ms s) = setAgenda ms (upd s)) : IgnoresAgenda fun s => .next (upd s) :=
  fun ms s => congrArg _ (hupd ms s)

theorem after_update (hf : IgnoresAgenda f) (hupd : ∀ ms s, upd (setAgenda ms s) = setAgenda ms (upd s)) :
    IgnoresAgenda fun s => f (upd s) := fun ms s =>
  (congrArg f (hupd ms s)).trans (hf ms (upd s))

theorem stop {e : State → Fault} (he : ∀ ms s, e (setAgenda ms s) = e s) : IgnoresAgenda fun s => .fault (e s) :=
  fun ms s => congrArg _ (he ms s)

theorem test {p : State → Prop} [DecidablePred p] (hp : ∀ ms s, p (setAgenda ms s) ↔ p s) (hf : IgnoresAgenda f)
    (hg : IgnoresAgenda g) : IgnoresAgenda fun s => if p s then f s else g s := fun ms s => by
  by_cases h : p s
  · exact (if_pos ((hp ms s).2 h)).trans ((hf ms s).trans (congrArg _ (if_pos h).symm))
  · exact (if_neg (mt (hp ms s).1 h)).trans ((hg ms s).trans (congrArg _ (if_neg h).symm))

end IgnoresAgenda

/-! ## Every state rule -/

theorem ignoresAgenda_advance (i : Instr) : IgnoresAgenda (advance i) := fun ms s => by
  cases hsucc : successor s.fsm i with
  | none => simp only [advance, show (setAgenda ms s).fsm = s.fsm from rfl, hsucc, answerWithAgenda]
  | some st =>
    by_cases hst : st = .idle
    · rw [advance_finish (hst ▸ hsucc), advance_finish (hst ▸ hsucc)]
      rfl
    · rw [advance_enter (s := s) hsucc hst, advance_enter (s := setAgenda ms s) hsucc hst]
      rfl

theorem ignoresAgenda_emptySample (code : ErrCode) : IgnoresAgenda fun s => .next (emptySample code s) :=
  .update fun ms s => by
    rw [emptySample, emptySample, apply_ite (setAgenda ms)]
    rfl

theorem ignoresAgenda_awaitVerify (v : Byte) (e : ErrCode) {k : State → Res} (hk : IgnoresAgenda k) :
    IgnoresAgenda (awaitVerify v e k) :=
  .test (fun _ _ => .rfl) (.test (fun _ _ => .rfl) (hk.after_update fun _ _ => rfl) (.update fun _ _ => rfl))
    (ignoresAgenda_emptySample .timeout)

theorem ignoresAgenda_awaitTake (e : ErrCode) {k : Byte → State → Res} (hk : ∀ b, IgnoresAgenda (k b)) :
    IgnoresAgenda (awaitTake e k) :=
  .test (fun _ _ => .rfl) (fun ms s => (hk (rxPeek s)).after_update (upd := rxPop) (fun _ _ => rfl) ms s)
    (ignoresAgenda_emptySample e)

theorem ignoresAgenda_csumRunStep (i : Instr) : IgnoresAgenda (csumRunStep i) :=
  .test (fun _ _ => .rfl)
    (fun ms s => by
      change (match bufRead .tx s.idx.toNat s with | some b => _ | none => _) = _
      cases bufRead .tx s.idx.toNat s <;> rfl)
    ((ignoresAgenda_advance i).after_update fun _ _ => rfl)

theorem ignoresAgenda_txSendStep (i : Instr) : IgnoresAgenda (txSendStep i) :=
  .test (fun _ _ => .rfl)
    (fun ms s => by
      change (match bufRead .frame s.idx.toNat s with | none => _ | some b => _) = _
      cases bufRead .frame s.idx.toNat s with
      | none => rfl
      | some b =>
        have hend : IgnoresAgenda fun s => advance i (txPush b s) :=
          (ignoresAgenda_advance i).after_update fun _ _ => rfl
        have hmore : IgnoresAgenda fun s => .next { txPush b s with idx := s.idx + 1 } := .update fun _ _ => rfl
        exact hend.test (p := fun s => s.idx.toNat = s.len.toNat + 6) (fun _ _ => .rfl) hmore ms s)
    (.update fun _ _ => rfl)

theorem buildRegs_setAgenda (o : Nat) (b : Byte) (ms : List Move) (s : State) :
    buildRegs o b (setAgenda ms s) = setAgenda ms (buildRegs o b s) := by
  simp only [buildRegs, apply_ite (setAgenda ms)]
  rfl

theorem withFrameByte_setAgenda (b : Byte) (ms : List Move) (s : State) :
    withFrameByte b (setAgenda ms s) = setAgenda ms (withFrameByte b s) :=
  congrArg _ (buildRegs_setAgenda s.idx.toNat b ms s)

theorem ignoresAgenda_buildRunStep (i : Instr) : IgnoresAgenda (buildRunStep i) := fun ms s => by
  obtain hgt | hle := Nat.lt_or_ge (s.len.toNat + 6) s.idx.toNat
  · rw [buildRunStep, if_pos (by exact hgt), buildRunStep, if_pos hgt]
    rfl
  · obtain ⟨b, hb⟩ := buildByte_eq_some s s.idx.toNat
    have hend : IgnoresAgenda fun s => advance i (withFrameByte b s) :=
      (ignoresAgenda_advance i).after_update (withFrameByte_setAgenda b)
    have hmore : IgnoresAgenda fun s => .next { withFrameByte b s with idx := s.idx + 1 } :=
      .update fun ms s => by rw [withFrameByte_setAgenda]; rfl
    rw [buildRunStep_of_byte hle hb, buildRunStep_of_byte (s := setAgenda ms s) hle hb]
    exact hend.test (p := fun s => s.idx.toNat = s.len.toNat + 6) (fun _ _ => .rfl) hmore ms s

theorem ignoresAgenda_drainFlushStep : IgnoresAgenda drainFlushStep :=
  .test (fun _ _ => .rfl) (.update fun _ _ => rfl) (.update fun _ _ => rfl)

theorem ignoresAgenda_drainDiscardStep (i : Instr) : IgnoresAgenda (drainDiscardStep i) :=
  .test (fun _ _ => .rfl) (ignoresAgenda_advance i) (.update fun _ _ => rfl)

theorem bufWrite_setAgenda (buf : Buffer) (j : Nat) (b : Byte) (ms : List Move) (s : State) :
    bufWrite buf j b (setAgenda ms s) = (bufWrite buf j b s).map (setAgenda ms) := by
  rw [bufWrite, bufWrite, apply_ite (Option.map (setAgenda ms))]
  rfl

theorem ignoresAgenda_rspPayStep : IgnoresAgenda rspPayStep :=
  ignoresAgenda_awaitTake .incomplete fun b ms s => by
    simp only [bufWrite_setAgenda, show (setAgenda ms s).idx = s.idx from rfl]
    cases bufWrite .rx s.idx.toNat b s with
    | none => rfl
    | some u =>
      simp only [Option.map_some, apply_ite (answerWithAgenda ms)]
      rfl

/-- No block step reads or writes the agenda. -/
theorem ignoresAgenda_stateRule (i : Instr) : IgnoresAgenda (stateRule i) := fun ms s => by
  have hfsm : (setAgenda ms s).fsm = s.fsm := rfl
  cases hf : s.fsm <;> simp only [stateRule, hfsm, hf]
  case idle => rfl
  case csumRun => exact ignoresAgenda_csumRunStep i ms s
  case buildRun => exact ignoresAgenda_buildRunStep i ms s
  case txSend => exact ignoresAgenda_txSendStep i ms s
  case drainFlush => exact ignoresAgenda_drainFlushStep ms s
  case drainDiscard => exact ignoresAgenda_drainDiscardStep i ms s
  case ack0 | rspSof0 | rspSof1 | rspCmdh | rspCmdl | rspCsum | rspEof0 =>
    exact ignoresAgenda_awaitVerify _ _ (.update fun _ _ => rfl) ms s
  case ack1 | rspEof1 => exact ignoresAgenda_awaitVerify _ _ (ignoresAgenda_advance i) ms s
  case rspLen => exact ignoresAgenda_awaitTake _ (fun _ => .update fun _ _ => rfl) ms s
  case rspPay => exact ignoresAgenda_rspPayStep ms s

theorem clockTick_setAgenda (ms : List Move) (h : clockTick s = .next t) :
    clockTick (setAgenda ms s) = .next (setAgenda ms t) := by
  obtain ⟨hb, rfl⟩ | ⟨i, hb, hd, hp, hrule⟩ := clockTick_next h
  · exact clockTick_idle hb
  · rw [clockTick_rule (s := setAgenda ms s) hb hd hp, ignoresAgenda_stateRule, hrule]
    rfl

/-! ## Runs of clocks -/

/-- Clocks on the agenda do what the clocks of an empty agenda do. -/
theorem run_clocks {n : Nat} {rest : List Move} (ha : s.agenda = List.replicate n .clock ++ rest)
    (h : run n (setAgenda [] s) = .next t) : run n s = .next (setAgenda rest t) := by
  induction n generalizing s with
  | zero =>
    rw [← Host.Outcome.next.inj h, run_zero]
    exact congrArg (fun ms => Host.Outcome.next (setAgenda ms s)) ha
  | succ n ih =>
    obtain ⟨u, hstep, hu⟩ := run_succ_next h
    rw [step_nil rfl] at hstep
    have hclock := clockTick_setAgenda (List.replicate n .clock ++ rest) hstep
    rw [run_succ ((step_cons ha).trans hclock)]
    have hagenda : u.agenda = [] := clockTick_agenda hstep
    exact ih rfl (by rw [← hu, ← hagenda]; rfl)

/-- Bytes that arrive after clocks go to the tail of RXQ, and then no move is left. -/
theorem run_clocks_arrive {n : Nat} {bs : List Byte}
    (ha : s.agenda = List.replicate n .clock ++ [.arrive bs]) (h : run n (setAgenda [] s) = .next t) :
    run (n + 1) s = .next { t with rxq := t.rxq ++ bs, agenda := [] } :=
  run_snoc (run_clocks ha h) (step_cons (m := .arrive bs) (rest := []) rfl)

end Sys2Proof.Machine
end

section
/-!
PROOFS. The run of the drain (45_buffer_guard.md R220, R221), for every operation that has it: with TxEmpty true, a clock
latches the count, a clock discards each byte that waits, and the next one ends the phase with Advance.
-/
namespace Sys2Proof.Machine

variable {i : Instr} {s u : State} {j : Nat}

theorem stateRule_drainFlush (hf : s.fsm = .drainFlush) : stateRule i s = drainFlushStep s := by rw [stateRule, hf]

theorem stateRule_drainDiscard (hf : s.fsm = .drainDiscard) : stateRule i s = drainDiscardStep i s := by
  rw [stateRule, hf]

/-- The state `s` with `j` bytes of the latched count discarded. -/
def discardedAt (j : Nat) (s : State) : State := { s with k := s.k - j, rxq := s.rxq.drop j }

theorem drainDiscardStep_discardedAt (hq : s.k ≤ s.rxq.length) (hj : j < s.k) :
    drainDiscardStep i (discardedAt j s) = .next (discardedAt (j + 1) s) := by
  have hcons : (discardedAt j s).rxq = s.rxq[j] :: s.rxq.drop (j + 1) := List.drop_eq_getElem_cons (by omega)
  rw [drainDiscardStep, if_neg (by exact Nat.sub_ne_zero_of_lt hj), rxPop_cons hcons]
  rfl

theorem LeftAlone.discardedAt (hs : LeftAlone i s) (j : Nat) : LeftAlone i (discardedAt j s) :=
  ⟨hs.busy, hs.decoded, hs.agenda⟩

/-- After `j` clocks of DRAIN_DISCARD the oldest `j` bytes have been discarded. -/
theorem run_drainDiscard (hs : LeftAlone i s) (hp : FsmState.drainDiscard ∈ phasesOf i) (hf : s.fsm = .drainDiscard)
    (hq : s.k ≤ s.rxq.length) (hj : j ≤ s.k) : run j s = .next (discardedAt j s) := by
  induction j with
  | zero => rfl
  | succ j ih =>
    refine run_snoc (ih (by omega)) ?_
    rw [(hs.discardedAt j).step_eq (by exact hf ▸ hp), stateRule_drainDiscard (by exact hf),
      drainDiscardStep_discardedAt hq hj]

/-- When the latched count has been discarded, the phase ends with Advance. -/
theorem run_drainDiscard_end (hs : LeftAlone i s) (hp : FsmState.drainDiscard ∈ phasesOf i)
    (hf : s.fsm = .drainDiscard) (hq : s.k ≤ s.rxq.length) (hadv : advance i (discardedAt s.k s) = .next u) :
    run (s.k + 1) s = .next u := by
  refine run_snoc (run_drainDiscard hs hp hf hq le_rfl) ?_
  rw [(hs.discardedAt s.k).step_eq (by exact hf ▸ hp), stateRule_drainDiscard (by exact hf), drainDiscardStep,
    if_pos (by exact Nat.sub_self s.k), hadv]

/-- The state in which the drain that was entered in `s` ends: every byte that waited is discarded. -/
def drained (s : State) : State := { enter .drainDiscard s with k := 0, rxq := [] }

/-- With TxEmpty true, every byte that waits in RXQ is discarded, and the drain ends with Advance. -/
theorem run_drain_end (hs : LeftAlone i s) (hpFlush : FsmState.drainFlush ∈ phasesOf i)
    (hpDiscard : FsmState.drainDiscard ∈ phasesOf i) (hempty : s.txEmpty = true)
    (hadv : advance i (drained s) = .next u) :
    run (s.rxq.length + 2) (enter .drainFlush s) = .next u := by
  have hlatch : step (enter .drainFlush s) = .next (enter .drainDiscard { s with k := s.rxq.length }) := by
    rw [(hs.enter .drainFlush).step_eq hpFlush, stateRule_drainFlush rfl, drainFlushStep, if_pos (by exact hempty)]
    rfl
  have halone : LeftAlone i (enter .drainDiscard { s with k := s.rxq.length }) := ⟨hs.busy, hs.decoded, hs.agenda⟩
  have hdone : discardedAt s.rxq.length (enter .drainDiscard { s with k := s.rxq.length }) = drained s := by
    simp only [discardedAt, enter_k, enter_rxq, Nat.sub_self, List.drop_length]
    rfl
  rw [run_succ hlatch]
  exact run_drainDiscard_end halone hpDiscard rfl le_rfl (by rw [← hadv, ← hdone]; rfl)

end Sys2Proof.Machine
end

section
/-!
PROOFS. The handshake sequencer (44_handshake.md): the steps of ACK0 and ACK1, the operation AWAIT_ACK, and the
transactions EXEC_CMD and EXEC_REQ.

A transaction is the drain, the build and the transmission, which never fail (`run_transmission`), then the ack
(`run_ack`), and in EXEC_REQ the frame reader. The phases before the ack run over the clocks on the agenda as over an
empty one (`run_clocks_arrive`).
-/
namespace Sys2Proof.Machine

variable {i : Instr} {s t : State} {b : Byte} {rest : List Byte}

/-! ## The steps of ACK0 and ACK1 (44_handshake.md R200, R201) -/

theorem ack1_mem_phasesOf (hp : FsmState.ack0 ∈ phasesOf i) : FsmState.ack1 ∈ phasesOf i :=
  ownTransition_mem_phasesOf (st := .ack0) (by decide) hp

/-- The ack is the last phase of each operation that has it but EXEC_REQ (40_dispatch.md Table 40-1). -/
theorem successor_ack1 (hp : FsmState.ack0 ∈ phasesOf i) (hne : i ≠ .execReq) : successor .ack1 i = some .idle := by
  have ends : FsmState.ack0 ∈ phasesOf i → i ≠ .execReq → successor .ack1 i = some .idle := by cases i <;> decide
  exact ends hp hne

/-- Settles O28: the two bytes of the ack, the second of which ends the phase with Advance. -/
theorem ackStatesVerifyTheirBytes : Obligations.AckStatesVerifyTheirBytes := by
  intro s i hb hp
  have hp₁ := ack1_mem_phasesOf hp
  refine ⟨fun hf => ?_, fun hf hne => ?_, fun hf hi => ?_⟩
  · exact exec_awaitVerify hb (hf ▸ hp) rfl (by rw [stateRule, hf]; rfl) fun _ => rfl
  · have hend : successor s.fsm i = some .idle := hf ▸ successor_ack1 hp hne
    exact exec_awaitVerify hb (hf ▸ hp₁) rfl (by rw [stateRule, hf]; rfl) fun _ => advance_finish hend
  · have hreads : successor s.fsm i = some .rspSof0 := by rw [hf, hi]; rfl
    exact exec_awaitVerify hb (hf ▸ hp₁) rfl (by rw [stateRule, hf]; rfl) fun rest =>
      advance_enter (s := { s with rxq := rest }) hreads (by decide)

/-! ## An ack that is accepted -/

/-- The state `s` of ACK0 after the first byte of the ack, with the bytes `rest` behind it. -/
def ackBegun (rest : List Byte) (s : State) : State := { s with rxq := rest, fsm := .ack1, poll := 0 }

theorem LeftAlone.ackBegun (hs : LeftAlone i s) (rest : List Byte) : LeftAlone i (ackBegun rest s) :=
  ⟨hs.busy, hs.decoded, hs.agenda⟩

theorem compares_ack0 (hs : LeftAlone i s) (hp : FsmState.ack0 ∈ phasesOf i) (hf : s.fsm = .ack0) :
    Compares 0x07 (fun rest => ackBegun rest s) s :=
  .of_state hf (hs.step_exec.trans ((ackStatesVerifyTheirBytes s i hs.busy hp).1 hf))

theorem compares_ack1 (hs : LeftAlone i s) (hp : FsmState.ack0 ∈ phasesOf i) (hf : s.fsm = .ack1) (hne : i ≠ .execReq) :
    Compares 0xF3 (fun rest => finish .none { s with rxq := rest }) s :=
  .of_state hf (hs.step_exec.trans ((ackStatesVerifyTheirBytes s i hs.busy hp).2.1 hf hne))

theorem compares_ack1_execReq (hs : LeftAlone .execReq s) (hf : s.fsm = .ack1) :
    Compares 0xF3 (fun rest => enter .rspSof0 { s with rxq := rest }) s :=
  .of_state hf (hs.step_exec.trans ((ackStatesVerifyTheirBytes s .execReq hs.busy (by decide)).2.2 hf rfl))

/-- Two clocks take the ack, which ends AWAIT_ACK and EXEC_CMD. -/
theorem run_ack (hs : LeftAlone i s) (hp : FsmState.ack0 ∈ phasesOf i) (hf : s.fsm = .ack0) (hne : i ≠ .execReq)
    (hq : s.rxq = 0x07 :: 0xF3 :: rest) : run 2 s = .next (finish .none (ackBegun rest s)) :=
  run_snoc (run_snoc (run_zero s) ((compares_ack0 hs hp hf).matched hq))
    ((compares_ack1 (hs.ackBegun (0xF3 :: rest)) hp rfl hne).matched rfl)

/-- Two clocks take the ack, after which EXEC_REQ enters the frame reader. -/
theorem run_ack_execReq (hs : LeftAlone .execReq s) (hf : s.fsm = .ack0) (hq : s.rxq = 0x07 :: 0xF3 :: rest) :
    run 2 s = .next (enter .rspSof0 (ackBegun rest s)) :=
  run_snoc (run_snoc (run_zero s) ((compares_ack0 hs (by decide) hf).matched hq))
    ((compares_ack1_execReq (hs.ackBegun (0xF3 :: rest)) rfl).matched rfl)

/-! ## The operation AWAIT_ACK (44_handshake.md R202) -/

theorem stateByte_ack0 : stateByte .ack0 = 0x06 := by decide

theorem stateByte_ack1 : stateByte .ack1 = 0x07 := by decide

/-- STATUS after a timeout (60_exceptions.md Table 60-1). -/
theorem statusByte_timeout (b : Byte) (s : State) : statusByte (failedWith .timeout b s) = 0x12 := by
  change statusOf false true false .timeout = 0x12
  decide

/-- Settles O40: each of the two states matches, mismatches or times out. -/
theorem awaitAckOutcomes : Obligations.AwaitAckOutcomes := by
  intro s hb hop ha
  have hp : FsmState.ack0 ∈ phasesOf .awaitAck := by decide
  have hs : LeftAlone .awaitAck (startedIn .ack0 s) := ⟨rfl, hop ▸ decodeOp_opcode .awaitAck, ha⟩
  have hack0 := compares_ack0 hs hp rfl
  have begun {rest : List Byte} (hq : s.rxq = 0x07 :: rest) :
      run 1 (startedIn .ack0 s) = .next (ackBegun rest (startedIn .ack0 s)) :=
    run_snoc (run_zero _) (hack0.matched hq)
  refine ⟨startedIn .ack0 s, exec_idle hb, fun rest hq => run_ack hs hp rfl (by decide) hq,
    fun b rest hq hne => ?_, fun b rest hq hne => ?_, fun hq => ?_, fun hq => ?_⟩
  · rw [← stateByte_ack0]
    exact run_snoc (run_zero _) (hack0.mismatched hq hne)
  · rw [← stateByte_ack1]
    exact run_snoc (begun hq) ((compares_ack1 (hs.ackBegun (b :: rest)) hp rfl (by decide)).mismatched rfl hne)
  · rw [← stateByte_ack0]
    exact ⟨_, (run_empty hs hp (.head _) hq rfl).2, statusByte_timeout .., rfl⟩
  · have hempty := run_empty (hs.ackBegun []) (ack1_mem_phasesOf hp) (.tail _ (.head _)) rfl rfl
    rw [← stateByte_ack1]
    exact ⟨_, (run_add (n := 1000) (begun hq)).trans hempty.2, statusByte_timeout .., rfl⟩

/-! ## The phases before the ack (44_handshake.md R203) -/

/-- The operations that are transactions: the drain, the build, the transmission and the ack, in this order. -/
structure Transacts (i : Instr) : Prop where
  flush : FsmState.drainFlush ∈ phasesOf i
  discard : FsmState.drainDiscard ∈ phasesOf i
  build : FsmState.buildRun ∈ phasesOf i
  send : FsmState.txSend ∈ phasesOf i
  ack : FsmState.ack0 ∈ phasesOf i
  drained : successor .drainDiscard i = some .buildRun
  built : successor .buildRun i = some .txSend
  sent : successor .txSend i = some .ack0

theorem transacts_execCmd : Transacts .execCmd := by constructor <;> decide

theorem transacts_execReq : Transacts .execReq := by constructor <;> decide

/-- Since the Start in `s` RXQ has been drained and the frame of the operands transmitted, and the ack is awaited. -/
structure Transmitted (s t : State) : Prop where
  regs : t = { s with
    fsm := .ack0, poll := 0, k := 0, rxq := [], csum := t.csum, mem := t.mem, txLog := t.txLog, idx := t.idx
    acc := t.acc, seen := t.seen }
  txLog : t.txLog = s.txLog ++ requestFrame s
  frame : bufSpan .frame (s.len.toNat + 7) t = requestFrame s
  csum : t.csum = checksum (requestRegion s)
  kept : ∀ a, a < 0x400 ∨ 0x400 + s.len.toNat + 7 ≤ a → byteAt t a = byteAt s a

/-- The clocks from the Start of a transaction to its ack: the drain, then the build and the transmission. -/
def transmissionClocks (s : State) : Nat := s.rxq.length + 2 + 2 * (s.len.toNat + 7)

/-- With TxReady and TxEmpty true a transaction comes to its ack. -/
theorem run_transmission (hi : Transacts i) (hs : LeftAlone i s) (hready : s.txReady = true)
    (hempty : s.txEmpty = true) :
    ∃ t, Transmitted s t ∧ run (transmissionClocks s) (enter .drainFlush s) = .next t := by
  have hdrained : LeftAlone i (drained s) := ⟨hs.busy, hs.decoded, hs.agenda⟩
  have hdrain : run (s.rxq.length + 2) (enter .drainFlush s) = .next (enter .buildRun (drained s)) :=
    run_drain_end hs hi.flush hi.discard hempty (advance_enter hi.drained (by decide))
  obtain ⟨t, ht, hend⟩ := run_buildRun_end hdrained hi.build
  have hbuild : run (s.len.toNat + 7) (enter .buildRun (drained s)) = .next (enter .txSend t) :=
    hend _ (advance_enter (by rw [ht.fsm_eq]; exact hi.built) (by decide))
  have hsend := run_txSend_end (ht.leftAlone (hdrained.enter .buildRun)) hi.send (by rw [ht.regs]; exact hready)
    (advance_enter hi.sent (by decide))
  have htlen : t.len.toNat = s.len.toNat := by rw [ht.len_eq]; rfl
  obtain ⟨hframe, hcsum⟩ := ht.whole
  rw [htlen, ← run_add hbuild, ← Nat.two_mul] at hsend
  refine ⟨_, ?_, (run_add hdrain).trans hsend⟩
  refine ⟨?_, ?_, hframe, hcsum, ht.kept⟩
  · have hregs (txLog : List Byte) (idx : FrameIdx) : { t with fsm := .ack0, poll := 0, txLog, idx } = { s with
        fsm := .ack0, poll := 0, k := 0, rxq := [], csum := t.csum, mem := t.mem, txLog, idx
        acc := t.acc, seen := t.seen } := by
      rw [ht.regs]
      rfl
    exact hregs _ _
  · have hlog : t.txLog = s.txLog := by rw [ht.regs]; rfl
    rw [← hlog]
    exact congrArg (t.txLog ++ ·) hframe

namespace Transmitted

theorem fsm_eq (h : Transmitted s t) : t.fsm = .ack0 := by rw [h.regs]

theorem rxq_eq (h : Transmitted s t) : t.rxq = [] := by rw [h.regs]

theorem leftAlone (h : Transmitted s t) (hs : LeftAlone i s) : LeftAlone i t := by
  rw [h.regs]
  exact ⟨hs.busy, hs.decoded, hs.agenda⟩

theorem expCmd_eq (h : Transmitted s t) : t.expCmd = s.expCmd := by rw [h.regs]

end Transmitted

/-- Where the bytes `bs` arrive right after the transmission, the ack is awaited with these bytes alone in RXQ. -/
theorem run_transmission_arrive {bs : List Byte} (hi : Transacts i) (hs : LeftAlone i (setAgenda [] s))
    (hready : s.txReady = true) (hempty : s.txEmpty = true)
    (ha : s.agenda = List.replicate (transmissionClocks s) .clock ++ [.arrive bs]) :
    ∃ t, Transmitted (setAgenda [] s) t ∧ LeftAlone i { t with rxq := bs }
      ∧ run (transmissionClocks s + 1) (enter .drainFlush s) = .next { t with rxq := bs } := by
  obtain ⟨t, ht, hrun⟩ := run_transmission hi hs hready hempty
  have halone := ht.leftAlone hs
  have harrived : { t with rxq := t.rxq ++ bs, agenda := [] } = { t with rxq := bs } := by
    rw [ht.rxq_eq, ← halone.agenda, List.nil_append]
  exact ⟨t, ht, ⟨halone.busy, halone.decoded, halone.agenda⟩,
    harrived ▸ run_clocks_arrive (s := enter .drainFlush s) ha hrun⟩

/-! ## The transactions (44_handshake.md R203 to R205) -/

/-- Settles O45: the phases before the ack, and the ack that arrives after them. -/
theorem execCmdRunsACommandTransaction : Obligations.ExecCmdRunsACommandTransaction := by
  intro s tail hb hop hready hempty ha
  have hs : LeftAlone .execCmd (setAgenda [] (startedIn .drainFlush s)) := ⟨rfl, hop ▸ decodeOp_opcode .execCmd, rfl⟩
  obtain ⟨t, ht, halone, hrun⟩ := run_transmission_arrive transacts_execCmd hs hready hempty ha
  have hack := run_ack halone transacts_execCmd.ack ht.fsm_eq (by decide) rfl
  refine ⟨enter .drainFlush (startedIn .drainFlush s), _, exec_idle hb, (run_add hrun).trans hack, ht.txLog, rfl,
    ht.frame, ht.csum, ht.kept, ?_, ?_⟩
  · rw [statusByte_finish]
    decide
  · rw [ht.regs]
    rfl

/-- Settles O46: the phases before the ack, and 1000 empty samples of ACK0. -/
theorem execCmdTimesOutWithoutAnAck : Obligations.ExecCmdTimesOutWithoutAnAck := by
  intro s hb hop hready hempty ha
  have hs : LeftAlone .execCmd (startedIn .drainFlush s) := ⟨rfl, hop ▸ decodeOp_opcode .execCmd, ha⟩
  obtain ⟨t, ht, hrun⟩ := run_transmission transacts_execCmd hs hready hempty
  have htimeout := (run_empty (ht.leftAlone hs) (ht.fsm_eq ▸ transacts_execCmd.ack) (ht.fsm_eq ▸ .head _) ht.rxq_eq
    (by rw [ht.regs])).2
  refine ⟨_, _, exec_idle hb, (run_add hrun).trans htimeout, ht.txLog, ht.rxq_eq, ?_, ?_, ?_, ht.csum⟩
  · rw [ht.fsm_eq]
    exact statusByte_timeout ..
  · rw [failedWith_failState, ht.fsm_eq, stateByte_ack0]
  · rw [failedWith_failByte, ht.regs]
    rfl

/-- The state in which the run of EXEC_REQ begins, but for the entry into DRAIN_FLUSH (40_dispatch.md R110). -/
def requestStarted (s : State) : State := { startedIn .drainFlush s with rxLen := 0x00 }

/-- Settles O47: the phases before the ack, the ack, and the run of the reader over the response behind it. -/
theorem execReqRunsARequestTransaction : Obligations.ExecReqRunsARequestTransaction := by
  intro s n q tail hb hop hready hempty hq ha
  have hs : LeftAlone .execReq (setAgenda [] (requestStarted s)) := ⟨rfl, hop ▸ decodeOp_opcode .execReq, rfl⟩
  obtain ⟨t, ht, halone, hrun⟩ := run_transmission_arrive (s := requestStarted s) transacts_execReq hs hready hempty ha
  have hack := run_ack_execReq halone ht.fsm_eq rfl
  have hexp : t.expCmd = s.expCmd := ht.expCmd_eq
  have hresponse : responseFrame s.expCmd n q ++ tail = responseFrame t.expCmd n q ++ tail := by rw [hexp]
  obtain ⟨u, hu, hread⟩ := run_reader_accepts (halone.ackBegun _) (by decide) hq (agrees_of_append hresponse hq)
  have htail : (responseFrame s.expCmd n q ++ tail).drop (n.toNat + 8) = tail := by
    rw [← responseFrame_length hq s.expCmd, List.drop_left]
  have hn := n.isLt
  refine ⟨enter .drainFlush (requestStarted s), _, exec_idle hb, (run_add ((run_add hrun).trans hack)).trans hread, ?_,
    htail, ?_, hu.rxLen_eq (by omega), hu.bufSpan_eq hq (by omega), ?_, ?_, ?_, ?_⟩
  · rw [hu.regs]
    exact ht.txLog
  · refine (bufSpan_congr fun k hk => ?_).trans ht.frame
    refine hu.kept _ (.inr ?_)
    rw [bufBase_frame]
    omega
  · rw [← hexp]
    exact hu.csum_eq (by omega)
  · intro a hrx hframe
    exact (hu.kept a (by omega)).trans (ht.kept a (by change a < 0x400 ∨ 0x400 + s.len.toNat + 7 ≤ a; omega))
  · rw [statusByte_finish]
    decide
  · rw [hu.regs, ht.regs]
    rfl

end Sys2Proof.Machine
end

section
/-!
PROOFS. The buffer guard (45_buffer_guard.md): the steps of DRAIN_FLUSH and DRAIN_DISCARD, the operation DRAIN, and the
cover of the count by RXQ.

The latch is the step of `drainStatesFlushThenDiscard`; from it on the drain is the run of DRAIN_DISCARD, which is
`run_drainDiscard_end` for any RXQ that covers the count, so also for one that has grown since the latch.
-/
namespace Sys2Proof.Machine

variable {i : Instr} {s t u : State} {j : Nat}

/-! ## The steps of DRAIN_FLUSH and DRAIN_DISCARD (45_buffer_guard.md R220, R221) -/

theorem drainDiscard_mem_phasesOf (hp : FsmState.drainFlush ∈ phasesOf i) : FsmState.drainDiscard ∈ phasesOf i :=
  ownTransition_mem_phasesOf (st := .drainFlush) (by decide) hp

/-- Settles O26: the two branches of each of the two rules. -/
theorem drainStatesFlushThenDiscard : Obligations.DrainStatesFlushThenDiscard := by
  intro s i hb hp
  have flushes (hf : s.fsm = .drainFlush) : exec i s = drainFlushStep s :=
    (exec_busy hb (hf ▸ hp)).trans (stateRule_drainFlush hf)
  have discards (hf : s.fsm = .drainDiscard) : exec i s = drainDiscardStep i s :=
    (exec_busy hb (hf ▸ drainDiscard_mem_phasesOf hp)).trans (stateRule_drainDiscard hf)
  refine ⟨fun hf hempty => ?_, fun hf hempty => ?_, fun hf hk => ?_, fun b rest hf hk hq => ?_⟩
  · exact (flushes hf).trans (if_neg (by simp [hempty]))
  · exact (flushes hf).trans (if_pos hempty)
  · exact (discards hf).trans (if_pos hk)
  · rw [discards hf, drainDiscardStep, if_neg hk, rxPop_cons hq]

/-! ## The operation DRAIN (45_buffer_guard.md R222) -/

/-- The state that DRAIN_FLUSH enters: `k` counts the bytes that wait. -/
def latched (s : State) : State := enter .drainDiscard { s with k := s.rxq.length }

theorem LeftAlone.latched (hs : LeftAlone i s) : LeftAlone i (latched s) := ⟨hs.busy, hs.decoded, hs.agenda⟩

theorem step_latches (hs : LeftAlone i s) (hp : FsmState.drainFlush ∈ phasesOf i) (hempty : s.txEmpty = true) :
    step (enter .drainFlush s) = .next (latched s) := by
  obtain ⟨-, latches, -⟩ := drainStatesFlushThenDiscard (enter .drainFlush s) i hs.busy hp
  exact (hs.enter .drainFlush).step_exec.trans (latches rfl hempty)

/-- One clock latches the count, and `j` more discard the oldest `j` bytes. -/
theorem run_latched_discards (hs : LeftAlone i s) (hp : FsmState.drainFlush ∈ phasesOf i) (hempty : s.txEmpty = true)
    (hj : j ≤ s.rxq.length) : run (j + 1) (enter .drainFlush s) = .next (discardedAt j (latched s)) := by
  rw [run_succ (step_latches hs hp hempty)]
  exact run_drainDiscard hs.latched (drainDiscard_mem_phasesOf hp) rfl le_rfl hj

/-- STATUS holds its value through the drain. -/
theorem statusByte_run_drain (hs : LeftAlone i s) (hp : FsmState.drainFlush ∈ phasesOf i) (hempty : s.txEmpty = true)
    (hj : j < s.rxq.length + 2) (hrun : run j (enter .drainFlush s) = .next t) : statusByte t = statusByte s := by
  cases j with
  | zero =>
    obtain rfl := Host.Outcome.next.inj hrun
    rfl
  | succ j =>
    have hdiscards := run_latched_discards (j := j) hs hp hempty (by omega)
    obtain rfl := Host.Outcome.next.inj (hdiscards.symm.trans hrun)
    rfl

/-- Settles O38: the run of the drain, and Finish. -/
theorem drainOperationDiscardsWhatWaits : Obligations.DrainOperationDiscardsWhatWaits := by
  intro s hb hop ha hempty
  have hp : FsmState.drainFlush ∈ phasesOf .drain := by decide
  have hs : LeftAlone .drain (startedIn .drainFlush s) := ⟨rfl, hop ▸ decodeOp_opcode .drain, ha⟩
  have hrun := run_drain_end hs hp (drainDiscard_mem_phasesOf hp) hempty (advance_finish rfl)
  refine ⟨enter .drainFlush (startedIn .drainFlush s), _, exec_idle hb, hrun, fun m w hm hw => ?_, ?_, rfl⟩
  · rw [statusByte_run_drain hs hp hempty hm hw, statusByte_startedIn]
  · rw [statusByte_finish]
    decide

/-! ## Bytes that arrive after the latch (45_buffer_guard.md R224) -/

/-- The state `s` with `j` bytes of the count discarded, the others waiting, and the bytes `late` behind them. -/
def withLate (j : Nat) (late : List Byte) (s : State) : State :=
  { discardedAt j (latched s) with rxq := s.rxq.drop j ++ late, agenda := [] }

/-- The rest of the count is discarded, which leaves the late bytes, and the drain ends with Advance. -/
theorem run_withLate_end {late : List Byte} (hs : LeftAlone i (setAgenda [] s))
    (hp : FsmState.drainFlush ∈ phasesOf i)
    (hadv : advance i { latched s with k := 0, rxq := late, agenda := [] } = .next u) :
    run (s.rxq.length - j + 1) (withLate j late s) = .next u := by
  have halone : LeftAlone i (withLate j late s) := ⟨hs.busy, hs.decoded, rfl⟩
  have hwait : (s.rxq.drop j).length = s.rxq.length - j := List.length_drop
  have hcover : (withLate j late s).k ≤ (withLate j late s).rxq.length := by
    change s.rxq.length - j ≤ (s.rxq.drop j ++ late).length
    rw [List.length_append, hwait]
    exact Nat.le_add_right ..
  have hdone : discardedAt (s.rxq.length - j) (withLate j late s)
      = { latched s with k := 0, rxq := late, agenda := [] } := by
    have hq : (s.rxq.drop j ++ late).drop (s.rxq.length - j) = late := by rw [← hwait, List.drop_left]
    exact congrArg₂ (fun k rxq => { latched s with k, rxq, agenda := [] }) (Nat.sub_self _) hq
  exact run_drainDiscard_end halone (drainDiscard_mem_phasesOf hp) rfl hcover (hdone ▸ hadv)

/-- Settles O39: the count is latched and `j` bytes are discarded, then the late bytes arrive, then the rest of the
count is discarded. -/
theorem drainKeepsLateBytes : Obligations.DrainKeepsLateBytes := by
  intro s j late hb hop hempty hj ha
  have hp : FsmState.drainFlush ∈ phasesOf .drain := by decide
  have hs : LeftAlone .drain (setAgenda [] (startedIn .drainFlush s)) := ⟨rfl, hop ▸ decodeOp_opcode .drain, rfl⟩
  have harrive : run (j + 1 + 1) (enter .drainFlush (startedIn .drainFlush s))
      = .next (withLate j late (startedIn .drainFlush s)) :=
    (run_clocks_arrive (s := enter .drainFlush (startedIn .drainFlush s)) (Nat.add_comm 1 j ▸ ha)
      (run_latched_discards hs hp hempty hj) :)
  have hend := run_withLate_end (s := startedIn .drainFlush s) (j := j) (late := late) hs hp (advance_finish rfl)
  have hclocks : s.rxq.length + 3 = j + 1 + 1 + (s.rxq.length - j + 1) := by omega
  exact ⟨enter .drainFlush (startedIn .drainFlush s), _, exec_idle hb, hclocks ▸ (run_add harrive).trans hend, rfl⟩

/-! ## The cover of the count (45_buffer_guard.md R221) -/

/-- No operation begins with DRAIN_DISCARD (30_encoding.md Table 30-1). -/
theorem head_phasesOf_ne_drainDiscard {st : FsmState} {rest : List FsmState} (h : phasesOf i = st :: rest) :
    st ≠ .drainDiscard := by
  have heads : ∀ x ∈ (phasesOf i).head?, x ≠ .drainDiscard := by cases i <;> decide
  exact heads st (by rw [h, List.head?_cons]; rfl)

/-- No row of 40_dispatch.md Table 40-1 leads to DRAIN_DISCARD. -/
theorem successor_ne_drainDiscard {st : FsmState} : successor st i ≠ some .drainDiscard := by
  unfold successor
  split <;> decide

/-- A block step comes to DRAIN_DISCARD from DRAIN_FLUSH alone, and may stay there. -/
theorem BlockStep.from_drainFlush (hb : BlockStep i s t) (ht : t.fsm = .drainDiscard) :
    s.fsm = .drainDiscard ∨ s.fsm = .drainFlush := by
  have own : ∀ p ∈ ownTransitions, p.2 = .drainDiscard → p.1 = .drainFlush := by decide
  obtain ⟨u, hw, rfl | ⟨code, rfl⟩ | ⟨st, hown | hsucc, rfl⟩⟩ := hb
  · exact .inl (hw.fsm ▸ ht)
  · cases ht
  · exact .inr (hw.fsm ▸ own _ hown ht)
  · obtain rfl : st = .drainDiscard := ht
    exact absurd hsucc successor_ne_drainDiscard

/-- Every discard takes one byte of RXQ and one of the count. -/
theorem drainDiscardStep_drainCovered (hcover : s.k ≤ s.rxq.length) (h : drainDiscardStep i s = .next t) :
    drainCovered t := by
  intro ht
  obtain ⟨-, h⟩ | ⟨hk, rfl⟩ := drainDiscardStep_next h
  · obtain ⟨-, rfl⟩ | ⟨st, -, hsucc, rfl⟩ := advance_next h
    · cases ht
    · obtain rfl : st = .drainDiscard := ht
      exact absurd hsucc successor_ne_drainDiscard
  · change s.k - 1 ≤ (popQueue s.rxq).length
    rw [popQueue_eq_tail, List.length_tail]
    omega

theorem stateRule_drainCovered (hc : drainCovered s) (h : stateRule i s = .next t) : drainCovered t := by
  intro ht
  obtain hf | hf := (stateRule_blockStep h).from_drainFlush ht
  · rw [stateRule_drainDiscard hf] at h
    exact drainDiscardStep_drainCovered (hc hf) h ht
  · rw [stateRule_drainFlush hf] at h
    obtain ⟨-, rfl⟩ | ⟨-, rfl⟩ := drainFlushStep_next h
    · exact hc ht
    · exact le_rfl

theorem startOp_drainCovered (i : Instr) (clears : Bool) (s : State) :
    drainCovered (startOp (phasesOf i) clears s) := by
  intro hf
  obtain ⟨-, h⟩ | ⟨st, rest, hph, h⟩ := startOp_cases (phasesOf i) clears s <;> rw [h] at hf
  · cases hf
  · exact absurd hf (head_phasesOf_ne_drainDiscard hph)

theorem clockTick_drainCovered (hc : drainCovered s) (h : clockTick s = .next t) : drainCovered t := by
  obtain ⟨-, rfl⟩ | ⟨i, -, -, -, h⟩ := clockTick_next h
  · exact hc
  · exact stateRule_drainCovered hc h

/-- A host write starts an operation, or leaves RXQ, the count and a running drain as they are. -/
theorem hostWrite_drainCovered {a : HostAddr} {v : Byte} (hc : drainCovered s) (h : hostWrite a v s = .next t) :
    drainCovered t := by
  obtain ⟨-, rfl⟩ | ⟨-, -, i, -, rfl⟩ | ⟨-, -, -, rfl⟩ | ⟨-, -, rfl⟩ | ⟨-, -, rfl⟩ | ⟨-, -, rfl⟩
    | ⟨-, -, -, rfl⟩ | ⟨-, rfl⟩ := hostWrite_next h
  case inr.inl => exact startOp_drainCovered i _ _
  case inr.inr.inl => exact fun hf => nomatch hf
  all_goals exact hc

/-- Settles O53: an arrival can only add to RXQ, the block pops it with the count, another agent's pop is excluded by
the duty of 20_memory.md R62, and every other move leaves both as they are. -/
theorem drainNeverRunsDry : Obligations.DrainNeverRunsDry := by
  intro s t hc hduty h
  obtain ⟨u, rfl, ⟨-, h⟩ | ⟨a, v, -, h⟩ | ⟨a, -, rfl⟩ | ⟨-, rfl⟩ | ⟨bs, -, rfl⟩ | ⟨b, -, rfl⟩ | ⟨b, -, rfl⟩
    | ⟨hsteal, -⟩ | ⟨-, rfl⟩⟩ := step_next h
  case inl => exact clockTick_drainCovered (s := { s with agenda := s.agenda.tail }) hc h
  case inr.inl => exact hostWrite_drainCovered (s := { s with agenda := s.agenda.tail }) hc h
  case inr.inr.inr.inr.inl =>
    intro hf
    change s.k ≤ (s.rxq ++ bs).length
    rw [List.length_append]
    exact Nat.le_add_right_of_le (hc hf)
  case inr.inr.inr.inr.inr.inr.inr.inl => exact absurd hsteal hduty
  case inr.inr.inr.inr.inr.inr.inr.inr => exact fun hf => nomatch hf
  all_goals exact hc

end Sys2Proof.Machine
end

section
/-!
PROOFS. Reset (70_reset_and_hazards.md section 1), and the two waits that reset alone bounds (section 3, R283).

A step whose move is the reset event is `resetEvent` (`step_reset`). A wait is a clock that changes nothing, so any
number of clocks changes nothing (`run_waits`), also when they stand on the agenda before the reset (`run_clocks`).
-/
namespace Sys2Proof.Machine

variable {i : Instr} {s : State}

/-! ## The reset event (70_reset_and_hazards.md R270 to R272) -/

theorem step_reset {rest : List Move} (ha : s.agenda = .reset :: rest) :
    step s = .next (resetEvent { s with agenda := rest }) :=
  step_cons ha

/-- No buffer byte is written yet after reset, so each reads as the draw of that reset. -/
theorem byteAt_resetEvent (s : State) (a : Nat) :
    byteAt (resetEvent s) a = Config.bufferDraw (s.bufEpoch + 1) a := rfl

theorem statusByte_resetEvent (s : State) : statusByte (resetEvent s) = 0x00 := by
  change statusOf false false false .none = 0x00
  decide

/-- Settles O5: STATUS is read from its flags, and every other register and the transport's state is a field of
`resetEvent`. -/
theorem resetSetsEveryRegister : Obligations.ResetSetsEveryRegister := by
  intro s rest ha
  refine ⟨_, step_reset ha, rfl, statusByte_resetEvent _, ?_⟩
  and_intros <;> rfl

/-- Settles O6: the block is idle after reset, so of the writers of a buffer byte the host alone is left. -/
theorem resetDrawsTheBufferBytes : Obligations.ResetDrawsTheBufferBytes := by
  intro s t u a hreset ht hu
  have ha : s.agenda = .reset :: s.agenda.tail := List.eq_cons_of_mem_head? hreset
  obtain rfl := Host.Outcome.next.inj ((step_reset ha).symm.trans ht)
  refine ⟨byteAt_resetEvent _ a, rfl, rfl, fun hnoReset hnoWrite => ?_⟩
  by_contra hne
  obtain ⟨-, -, -, x, v, rest, hwrite, hx⟩ | ⟨-, hb, -⟩ | ⟨-, hb, -⟩ :=
    bufferBytesChangeOnlyByTheirWriters _ u a hnoReset hu hne
  · exact hnoWrite x v rest hwrite hx
  all_goals exact Bool.false_ne_true hb

/-! ## The two unbounded waits (70_reset_and_hazards.md R283) -/

/-- The block waits for the transport: TX_SEND for TxReady, or DRAIN_FLUSH for TxEmpty. -/
def WaitsForTransport (s : State) : Prop :=
  (s.fsm = .txSend ∧ s.txReady = false) ∨ (s.fsm = .drainFlush ∧ s.txEmpty = false)

theorem stateRule_waits (hw : WaitsForTransport s) : stateRule i s = .next s := by
  obtain ⟨hf, hready⟩ | ⟨hf, hempty⟩ := hw
  · rw [stateRule_txSend hf, txSendStep_waits hready]
  · rw [stateRule_drainFlush hf, drainFlushStep, hempty]
    rfl

/-- Any number of clocks leaves the waiting block as it is. -/
theorem run_waits (hs : LeftAlone i s) (hp : s.fsm ∈ phasesOf i) (hw : WaitsForTransport s) (n : Nat) :
    run n s = .next s := by
  induction n with
  | zero => rfl
  | succ n ih => exact run_snoc ih ((hs.step_eq hp).trans (stateRule_waits hw))

/-- Settles O34: the clocks of the wait, and the reset behind them. -/
theorem theTwoUnboundedWaits : Obligations.TheTwoUnboundedWaits := by
  intro s i n hb hd hp hw
  refine ⟨fun ha => run_waits ⟨hb, hd, ha⟩ hp hw n, fun ha => ?_⟩
  have hwaits := run_waits (s := setAgenda [] s) ⟨hb, hd, rfl⟩ hp hw n
  exact ⟨_, run_snoc (run_clocks ha hwaits) (step_reset rfl), rfl, rfl⟩

end Sys2Proof.Machine
end

section
/-!
PROOFS. Two tables as they are written out: the words of Table 30-1 (30_encoding.md), and Advance by Table 40-1
(40_dispatch.md).

A word of 8 bits is the one byte that `decodeOp` reads, so its operation is the one of `decodeOp_opcode`. Advance is
Finish or Enter by `successor` (`advance_finish`, `advance_enter`); what is left is which pairs it sends where.
-/
namespace Sys2Proof.Machine

/-! ## The words of Table 30-1 -/

/-- A word of 8 bits is stored as its one byte. -/
theorem tableBytes_toNat (v : Byte) : tableBytes 8 v.toNat = [v] := by
  have low : tableByte 8 v.toNat 0 = v := by simp [tableByte, Nat.mod_eq_of_lt v.isLt]
  simp [tableBytes, low]

theorem decodeTableWord_opcode (i : Instr) : decodeTableWord 8 (opcode i).toNat = some i := by
  rw [decodeTableWord, tableBytes_toNat, decode_cons (decodeOp_opcode i)]

/-- Settles O2: the nine words are the operations' codes. -/
theorem writtenOutCodesDecode : Obligations.WrittenOutCodesDecode :=
  ⟨decodeTableWord_opcode .nop, decodeTableWord_opcode .csum, decodeTableWord_opcode .build,
    decodeTableWord_opcode .drain, decodeTableWord_opcode .send, decodeTableWord_opcode .awaitAck,
    decodeTableWord_opcode .readResp, decodeTableWord_opcode .execCmd, decodeTableWord_opcode .execReq⟩

/-! ## Table 40-1 -/

/-- Settles O17: in each row of the table, the successor of its pairs, and what Finish(NONE) or the entry of that
state writes. -/
theorem advanceFollowsTheTable : Obligations.AdvanceFollowsTheTable := by
  intro s
  refine ⟨fun p hp hf => ?_, fun i hi hf => ?_, fun i hi hf => ?_, fun i hi hf => ?_, fun hf => ?_⟩
  · have ends : successor p.1 p.2 = some .idle := (by decide : ∀ q ∈ _, successor q.1 q.2 = some .idle) p hp
    exact advance_finish (hf ▸ ends)
  · have sends : successor .buildRun i = some .txSend := (by decide : ∀ j ∈ _, successor .buildRun j = _) i hi
    exact advance_enter (hf ▸ sends) (by decide)
  · have awaits : successor .txSend i = some .ack0 := (by decide : ∀ j ∈ _, successor .txSend j = _) i hi
    exact advance_enter (hf ▸ awaits) (by decide)
  · have builds : successor .drainDiscard i = some .buildRun :=
      (by decide : ∀ j ∈ _, successor .drainDiscard j = _) i hi
    exact advance_enter (hf ▸ builds) (by decide)
  · have reads : successor .ack1 .execReq = some .rspSof0 := rfl
    exact advance_enter (hf ▸ reads) (by decide)

end Sys2Proof.Machine
end
